-- ==== Sys2Proof/Word.lean ====
section
/-! DEFINITION. The word types of the H2ME: bytes, half words, words and residues mod 26 (spec/00_scope.md R10, R11). -/

namespace Sys2Proof

/-- A byte of a buffer (R44). -/
abbrev Byte := BitVec 8

/-- A 16-bit operand, length or limit register (R34 to R39). -/
abbrev Half := BitVec 16

/-- A register, a bus word or a command word: the register and bus width is 32 bits (R10). -/
abbrev Word := BitVec 32

/-- A residue: an integer in [0, 26) (R10, R18). -/
abbrev Residue := Fin 26

end Sys2Proof
end

