-- ==== Sys2Proof/Syntax.lean ====
section
/-! DEFINITION. The commands of the H2ME: one constructor per row of spec/opcode_table.json (spec/30_encoding.md R82). -/

namespace Sys2Proof

/-- The eleven commands. A command word carries no operand (R80, R84), so no constructor has a field. -/
inductive Instr where
  /-- no operation (R104) -/
  | nop
  /-- extended GCD of OPA and OPB (R121) -/
  | egcd
  /-- inverse of OPA modulo OPB (R124) -/
  | modinv
  /-- determinant of KEY mod 26 (R127) -/
  | det
  /-- invertibility test of KEY (R130) -/
  | invchk
  /-- inverse of KEY mod 26 (R133) -/
  | invert
  /-- block transform of IBUF under KEY (R152) -/
  | encrypt
  /-- block transform of IBUF under the inverse of KEY (R155) -/
  | decrypt
  /-- plausibility score of IBUF (R175) -/
  | score
  /-- ranked key search (R200) -/
  | search
  /-- key search with known-plaintext early exit (R201) -/
  | searchkp
deriving DecidableEq, Repr

/-- The mnemonic of a command; its assembler syntax is the mnemonic alone (R87). -/
def Instr.mnemonic : Instr → String
  | .nop => "NOP"
  | .egcd => "EGCD"
  | .modinv => "MODINV"
  | .det => "DET"
  | .invchk => "INVCHK"
  | .invert => "INVERT"
  | .encrypt => "ENCRYPT"
  | .decrypt => "DECRYPT"
  | .score => "SCORE"
  | .search => "SEARCH"
  | .searchkp => "SEARCHKP"

end Sys2Proof
end

