-- ==== Sys2Proof/Decode.lean ====
section
/-! DEFINITION. The decoder of command words, total on every 32-bit word (spec/30_encoding.md R80 to R83, R86), and after it the encoder (R87). -/

namespace Sys2Proof

/-- Why a word is no command: R83's two kinds of illegal word. -/
inductive DecodeError where
  /-- RSV, bits [31:8], is not 0. -/
  | reservedBits
  /-- RSV = 0 and OP is one of 0x0B to 0xFF. -/
  | unassignedOpcode
deriving DecidableEq, Repr

/-- The field OP, bits [7:0] of a command word (R80). -/
def opField (w : Word) : Byte := w.extractLsb' 0 8

/-- The field RSV, bits [31:8] of a command word (R80). -/
def rsvField (w : Word) : BitVec 24 := w.extractLsb' 8 24

/-- The opcode map of R82. -/
def decodeOp (op : Byte) : Except DecodeError Instr :=
  match op.toNat with
  | 0x00 => .ok .nop
  | 0x01 => .ok .egcd
  | 0x02 => .ok .modinv
  | 0x03 => .ok .det
  | 0x04 => .ok .invchk
  | 0x05 => .ok .invert
  | 0x06 => .ok .encrypt
  | 0x07 => .ok .decrypt
  | 0x08 => .ok .score
  | 0x09 => .ok .search
  | 0x0A => .ok .searchkp
  | _ => .error .unassignedOpcode

/-- R86: a word with a reserved bit set is illegal; otherwise OP selects the command. -/
def decode (w : Word) : Except DecodeError Instr :=
  if rsvField w ≠ 0#24 then .error .reservedBits else decodeOp (opField w)

/-- The opcode of a command (R82). -/
def opcode : Instr → Byte
  | .nop => 0x00#8
  | .egcd => 0x01#8
  | .modinv => 0x02#8
  | .det => 0x03#8
  | .invchk => 0x04#8
  | .invert => 0x05#8
  | .encrypt => 0x06#8
  | .decrypt => 0x07#8
  | .score => 0x08#8
  | .search => 0x09#8
  | .searchkp => 0x0A#8

/-- R87: the encoding of a command is `zext_32(OP)`. -/
def encode (i : Instr) : Word := (opcode i).zeroExtend 32

/-- The word whose `nbits` low bits are those of `w` and whose bits above are 0. A command is exactly one 32-bit
word (R81), so the table's bit numbers are the word's. -/
def tableWord (nbits w : Nat) : Word := BitVec.ofNat 32 (w % 2 ^ nbits)

/-- What the decoder reads from an instruction numbered as the opcode table numbers it. A number of more than
32 bits is no command word (R81). -/
def decodeTableWord (nbits w : Nat) : Option Instr :=
  if w % 2 ^ nbits < 2 ^ 32 then
    match decode (tableWord nbits w) with
    | .ok i => some i
    | .error _ => none
  else none

end Sys2Proof
end

