-- ==== Sys2Proof/Config.lean ====
section
/-! DEFINITION. What an implementation of the H2ME fixes (spec/00_scope.md R9, spec/93_implementation_defined.md U7), and the free values: constants with no body, so that no proof can see what they are. -/

namespace Sys2Proof

/-- The parameters of R9 and U7. They are fixed for a machine: State carries them and no step changes them. -/
structure Params where
  /-- Bytes in IBUF and in OBUF; the largest LEN a command accepts. -/
  ibufSize : Nat
  /-- Bytes in KPBUF; the largest KP_LEN SEARCHKP accepts. -/
  kpSize : Nat
  /-- Entries in RTAB; the largest TOPN a search accepts. -/
  topnMax : Nat
  /-- Lanes of the search datapath; only CFG1 shows it. -/
  nlanes : Nat
  /-- KP_SCORES_NONMATCH of U7: whether SEARCHKP scores the keys that do not match. This spec's hardware: true. -/
  kpScoresNonmatch : Bool
deriving DecidableEq, Repr

/-- The defaults of R9, and U7's default. -/
def Params.default : Params :=
  { ibufSize := 1024, kpSize := 64, topnMax := 64, nlanes := 26, kpScoresNonmatch := true }

/-- A free value: which 0x8000-aligned window of the platform's address space is the H2ME's (D4 leaves BASE open). -/
opaque Config.windowIndex : Nat

/-- BASE, aligned to 0x8000 as R9 demands. -/
def Config.base : Nat := Config.windowIndex * 0x8000

/-- A free value: what the byte at a window offset holds when nothing has written it since the power-on
numbered `epoch` (U3, taken as a parameter). -/
opaque Config.unwrittenByte : (epoch offset : Nat) → Byte

/-- A free value: what a soft reset numbered `tag` leaves at a window offset that the cancelled command could
write (R252, U5: any value, stable once chosen, since it is then stored). -/
opaque Config.cancelledByte : (tag offset : Nat) → Byte

/-- A free value: what the read numbered `tag` of a volatile output returns (R262, U4: fresh on every read). -/
opaque Config.volatileWord : (tag : Nat) → Word

end Sys2Proof
end

