-- ==== Sys2Proof/Machine/State.lean ====
section
/-! DEFINITION. The state of the H2ME as plain data (spec/10_state.md R50), the reasons a step can stop, and the state after reset. -/

namespace Sys2Proof.Machine

/-- The outcomes STATUS.ERRCODE can hold (R31, R220). Codes 6 to 15 are never produced, so they have no constructor. -/
inductive ErrCode where
  /-- 0: NONE, success -/
  | noError
  /-- 1: ILLEGAL_CMD -/
  | illegalCmd
  /-- 2: BAD_LENGTH -/
  | badLength
  /-- 3: BAD_OPERAND -/
  | badOperand
  /-- 4: NO_INVERSE -/
  | noInverse
  /-- 5: NOT_INVERTIBLE -/
  | notInvertible
deriving DecidableEq, Repr

/-- A key (a, b, c, d), row-major: the matrix [[a, b], [c, d]] over residues (R14). -/
structure Key where
  a : Residue
  b : Residue
  c : Residue
  d : Residue
deriving DecidableEq, Repr

/-- The buffers IBUF, OBUF, KPBUF and RTAB: the bytes written since power-on, by window offset, strictly rising.
An offset that is not listed holds no written byte (R50). `Memory.wf` is the form every memory of a run has. -/
abbrev Memory := List Host.Cell

/-- The width of a bus transaction (R61): only 32 bits is served. -/
inductive AccessSize where
  | bits8
  | bits16
  | bits32
  | bits64
  /-- a partial byte-enable pattern -/
  | partialEnables
deriving DecidableEq, Repr

/-- What a transaction asks (R60): a read, or a write of a word. -/
inductive BusOp where
  | read
  | write (w : Word)
deriving DecidableEq, Repr

/-- A host bus transaction at a byte offset in [0, 0x8000) (R60). -/
structure Transaction where
  off : BitVec 15
  size : AccessSize
  op : BusOp
deriving DecidableEq, Repr

/-- The response of the port to a transaction (R60). -/
inductive Response where
  /-- a read's word -/
  | data (w : Word)
  /-- a write's ok -/
  | ok
  /-- BusError: no word, no effect (R61 to R63) -/
  | busError
deriving DecidableEq, Repr

/-- What happens next, in the order it happens (R68, R107): the model's input, plain data. -/
inductive Event where
  /-- a host transaction -/
  | bus (t : Transaction)
  /-- the input `rst` is driven to a level -/
  | rst (level : Bool)
  /-- the engine's turn: it completes the pending command, if there is one -/
  | engine
deriving DecidableEq, Repr

/-- The whole state: R50's, the level of `rst`, the parameters of R9, and four fields of the model's own
(`events`, `resp`, `fresh`, `epoch`). -/
structure State where
  /-- the parameters of R9 and U7, constant -/
  cfg : Params
  /-- CTRL.IE (R24) -/
  ie : Bool
  /-- STATUS.DONE (R27) -/
  done : Bool
  /-- STATUS.MATCH (R29) -/
  matched : Bool
  /-- STATUS.WERR (R30) -/
  werr : Bool
  /-- STATUS.ERRCODE (R31) -/
  errcode : ErrCode
  /-- CMD, the last accepted command word (R32) -/
  cmd : Word
  /-- KEY (R33) -/
  key : Key
  /-- OPA (R34) -/
  opa : Half
  /-- OPB (R35) -/
  opb : Half
  /-- RES0 (R36) -/
  res0 : Word
  /-- RES1 (R36) -/
  res1 : Word
  /-- RES2 (R36) -/
  res2 : Word
  /-- LEN (R37) -/
  len : Half
  /-- KP_LEN (R38) -/
  kpLen : Half
  /-- TOPN (R39) -/
  topn : Half
  /-- INV_COUNT (R40) -/
  invCount : Word
  /-- RETAINED (R41) -/
  retained : Word
  /-- NRESULTS (R42) -/
  nresults : Word
  /-- IBUF, OBUF, KPBUF and RTAB (R44, R45) -/
  mem : Memory
  /-- the pending command word (R46, R50); BUSY is `pending ≠ none` -/
  pending : Option Word
  /-- the level of the input `rst` (R60, R250) -/
  rst : Bool
  /-- the model's own: what the host and the engine do next -/
  events : List Event
  /-- the model's own: the port's response to the latest transaction -/
  resp : Option Response
  /-- the model's own: the number of the latest power-on, which names the unwritten bytes' contents (U3) -/
  epoch : Nat
  /-- the model's own: the number of the next free value to be drawn (U4, U5) -/
  fresh : Nat
deriving DecidableEq, Repr

/-- Why the machine stops with a fault: never. The H2ME has no trap and no fatal error (R222, R225): a command error
is a completion with an ERRCODE, a BusError is a response, and both go on. Nothing raises a fault, which is safe. -/
inductive Fault where
deriving DecidableEq, Repr

/-- Why a step has no meaning. -/
inductive Refusal where
  /-- The command has no meaning yet: raised by an arm of `exec` only. Safe: nothing is claimed about it. -/
  | notModelled (mnemonic : String)
  /-- A host transaction while `rst` is asserted: raised by `step`. The platform must not issue one, and the spec
  gives it no meaning (R250; U10: refuse). Safe: the model stops where the contract is broken. -/
  | transactionDuringReset
deriving DecidableEq, Repr

/-- The machine right after reset (R43, R250, R251): every register 0, nothing pending, nothing written to a buffer,
`rst` released, the default parameters. The last four fields are the model's own (assumption log 23). -/
def State.reset : State :=
  { cfg := Params.default
    ie := false, done := false, matched := false, werr := false, errcode := .noError
    cmd := 0#32
    key := ⟨0, 0, 0, 0⟩
    opa := 0#16, opb := 0#16
    res0 := 0#32, res1 := 0#32, res2 := 0#32
    len := 0#16, kpLen := 0#16, topn := 0#16
    invCount := 0#32, retained := 0#32, nresults := 0#32
    mem := []
    pending := none
    rst := false
    events := [], resp := none, epoch := 0, fresh := 1 }

end Sys2Proof.Machine
end

