-- ==== Sys2Proof/Machine/Ops.lean ====
section
/-! DEFINITION. The named operations over buffers and registers, the completion that every command ends in, and the two resets. -/

namespace Sys2Proof.Machine

/-! ## Residues and words -/

/-- The residue of a natural number: its remainder mod 26 (R12). -/
def residueOfNat (n : Nat) : Residue := ⟨n % 26, Nat.mod_lt _ (by decide)⟩

/-- The residue of an integer, in [0, 26) also for a negative one (R12). -/
def residueOfInt (z : Int) : Residue := ⟨(z % 26).toNat, by omega⟩

/-- `res(v) = v mod 26`: a stored byte read as a residue (R13, R65). -/
def res (b : Byte) : Residue := residueOfNat b.toNat

/-- A residue as the byte the engine stores (R44). -/
def residueByte (r : Residue) : Byte := BitVec.ofNat 8 r.val

/-- A residue, count or score as a register word, zero-extended (R85). -/
def wordOfNat (n : Nat) : Word := BitVec.ofNat 32 n

/-- A Bézout coefficient as a register word, 32-bit two's complement (R85). -/
def wordOfInt (z : Int) : Word := BitVec.ofInt 32 z

/-- The four bytes of a word, least significant first: the order of a buffer word (R64). -/
def wordBytes (w : Word) : List Byte :=
  [w.extractLsb' 0 8, w.extractLsb' 8 8, w.extractLsb' 16 8, w.extractLsb' 24 8]

/-- The word of four bytes, the first in bits [7:0] (R64). -/
def wordOfBytes (b0 b1 b2 b3 : Byte) : Word := b3 ++ b2 ++ b1 ++ b0

/-- `pack(K)` of R14: {d, c, b, a}, each entry in 8 bits. -/
def Key.pack (k : Key) : Word :=
  wordOfBytes (residueByte k.a) (residueByte k.b) (residueByte k.c) (residueByte k.d)

/-- `unpack(w)` of R14: each byte of the word reduced mod 26. -/
def Key.unpack (w : Word) : Key :=
  { a := res (w.extractLsb' 0 8)
    b := res (w.extractLsb' 8 8)
    c := res (w.extractLsb' 16 8)
    d := res (w.extractLsb' 24 8) }

/-! ## Buffers -/

/-- The byte that a memory lists at an offset. -/
def Memory.listed? : Memory → Nat → Option Byte
  | [], _ => none
  | (a, b) :: m, x => if a = x then some b else Memory.listed? m x

/-- Whether an offset is a byte of W3 of an RTAB entry: reserved, stuck at 0 (R45; 93 U2). -/
def rtabReserved (a : Nat) : Bool := decide (0x4000 ≤ a) && decide (a < 0x5000) && decide (12 ≤ a % 16)

/-- What an offset that is not listed reads as: 0 for a reserved byte, and no value elsewhere (R50, U2, U3). -/
def unlisted? (a : Nat) : Option Byte := if rtabReserved a then some 0#8 else none

/-- The byte at an offset, or no value where nothing has written one since power-on (R50). -/
def Memory.read? (m : Memory) (a : Nat) : Option Byte := (m.listed? a).or (unlisted? a)

/-- An entry that a memory needs: not equal to what its offset reads as unlisted. -/
def cellNeeded (c : Host.Cell) : Bool := decide (unlisted? c.1 ≠ some c.2)

/-- The form every memory of a run has: addresses strictly rising, and no entry equal to what an unlisted address
reads as, so that equal memories are equal lists. -/
abbrev Memory.wf (m : Memory) : Prop :=
  m.Pairwise (fun x y => x.1 < y.1) ∧ ∀ c ∈ m, cellNeeded c = true

/-- Bytes laid out at consecutive offsets. -/
def cellsFrom (base : Nat) : List Byte → Memory
  | [] => []
  | b :: bs => (base, b) :: cellsFrom (base + 1) bs

/-- A memory with the bytes `bs` written at `base`, `base + 1`, …, all together (R64, R68). A 0 written to a reserved
byte removes the entry. -/
def Memory.store (m : Memory) (base : Nat) (bs : List Byte) : Memory :=
  m.filter (fun x => decide (x.1 < base)) ++
    ((cellsFrom base bs).filter cellNeeded ++ m.filter (fun x => decide (base + bs.length ≤ x.1)))

/-- Window offset of IBUF[i] (R44). -/
def ibufAddr (i : Nat) : Nat := 0x1000 + i

/-- Window offset of OBUF[i] (R44). -/
def obufAddr (i : Nat) : Nat := 0x2000 + i

/-- Window offset of KPBUF[j] (R44). -/
def kpbufAddr (j : Nat) : Nat := 0x3000 + j

/-- Window offset of word W<k> of RTAB[j] (R45). -/
def rtabAddr (j k : Nat) : Nat := 0x4000 + 16 * j + 4 * k

/-- Whether a window offset is a byte of one of the four buffers that has storage (R44, R63): W3 of an entry has
none (U2). -/
def bufferAddr (p : Params) (a : Nat) : Bool :=
  (decide (0x1000 ≤ a) && decide (a < 0x1000 + p.ibufSize)) ||
    (decide (0x2000 ≤ a) && decide (a < 0x2000 + p.ibufSize)) ||
    (decide (0x3000 ≤ a) && decide (a < 0x3000 + p.kpSize)) ||
    (decide (0x4000 ≤ a) && decide (a < 0x4000 + 16 * p.topnMax) && !rtabReserved a)

/-- The content of a buffer byte: the byte last written, or the free power-on content where none was (R50, U3);
a reserved byte of RTAB is 0 (U2). -/
def State.byteAt (s : State) (a : Nat) : Byte :=
  (s.mem.read? a).getD (Config.unwrittenByte s.epoch a)

/-- The content of the buffer word at an offset, little-endian (R64). -/
def State.wordAt (s : State) (a : Nat) : Word :=
  wordOfBytes (s.byteAt a) (s.byteAt (a + 1)) (s.byteAt (a + 2)) (s.byteAt (a + 3))

/-- Write bytes to a buffer at consecutive offsets. -/
def State.storeBytes (s : State) (base : Nat) (bs : List Byte) : State :=
  { s with mem := s.mem.store base bs }

/-- OBUF[i] <- t[i] for every residue of the stream `t` (R152, R155, R198). -/
def State.storeObuf (s : State) (t : List Residue) : State :=
  s.storeBytes (obufAddr 0) (t.map residueByte)

/-! ## Result registers -/

/-- R.RES0 <- w (R36). -/
def State.setRes0 (s : State) (w : Word) : State := { s with res0 := w }

/-- R.RES1 <- w (R36). -/
def State.setRes1 (s : State) (w : Word) : State := { s with res1 := w }

/-- R.RES2 <- w (R36). -/
def State.setRes2 (s : State) (w : Word) : State := { s with res2 := w }

/-- R.NRESULTS, R.INV_COUNT and R.RETAINED, which a successful search writes together (R40 to R42). -/
def State.setCounters (s : State) (nresults invCount retained : Word) : State :=
  { s with nresults := nresults, invCount := invCount, retained := retained }

/-- R.STATUS.MATCH <- 1 (R198). -/
def State.setMatched (s : State) : State := { s with matched := true }

/-! ## The command lifecycle -/

/-- BUSY: a command is pending (R26). -/
def State.busy (s : State) : Bool := s.pending.isSome

/-- Acceptance of a command word (R100). -/
def State.accept (s : State) (w : Word) : State :=
  { s with cmd := w, done := false, errcode := .noError, matched := false, pending := some w }

/-- The last lines of a completion (R102): ERRCODE <- code, DONE <- 1, pending <- none. -/
def State.finish (s : State) (code : ErrCode) : State :=
  { s with errcode := code, done := true, pending := none }

/-- `raise Err(code)`: the command completes with the code and no other effect (R13, R222). It is all the H2ME has
of taking an exception (R225); the host returns from it by clearing DONE or starting a command (R226). -/
def raise (code : ErrCode) (s : State) : Host.Outcome State Fault Refusal := .next (s.finish code)

/-- A command completes without error; `s` is the state with its effects applied (R102). -/
def succeed (s : State) : Host.Outcome State Fault Refusal := .next (s.finish .noError)

/-! ## Reset -/

/-- Every register takes its reset value and nothing is pending (R250, R252, R43). -/
def State.clearRegisters (s : State) : State :=
  { s with
    ie := false, done := false, matched := false, werr := false, errcode := .noError
    cmd := 0#32
    key := ⟨0, 0, 0, 0⟩
    opa := 0#16, opb := 0#16
    res0 := 0#32, res1 := 0#32, res2 := 0#32
    len := 0#16, kpLen := 0#16, topn := 0#16
    invCount := 0#32, retained := 0#32, nresults := 0#32
    pending := none }

/-- Power-on reset (R250): registers reset, nothing pending, and the buffers' contents unspecified anew. -/
def State.powerOn (s : State) : State :=
  { s.clearRegisters with mem := [], epoch := s.fresh, fresh := s.fresh + 1 }

/-- The input `rst` is driven to a level (R250): while it is asserted, and when it is released, the machine is in
power-on reset. Driving a released `rst` low again changes nothing. -/
def State.driveRst (s : State) (level : Bool) : State :=
  if level || s.rst then { s.powerOn with rst := level } else s

/-- OBUF[0 … LEN−1] as a region, first offset and size. LEN may exceed the buffer; no byte beyond it exists. -/
def State.obufRegion (s : State) : Nat × Nat := (obufAddr 0, min s.len.toNat s.cfg.ibufSize)

/-- Every RTAB word as a region. -/
def State.rtabRegion (s : State) : Nat × Nat := (rtabAddr 0 0, 16 * s.cfg.topnMax)

/-- The buffer regions a command could write (R252). -/
def State.outputRegions (s : State) : Instr → List (Nat × Nat)
  | .nop => []
  | .egcd => []
  | .modinv => []
  | .det => []
  | .invchk => []
  | .invert => []
  | .encrypt => [s.obufRegion]
  | .decrypt => [s.obufRegion]
  | .score => []
  | .search => [s.rtabRegion]
  | .searchkp => [s.obufRegion, s.rtabRegion]

/-- The buffer regions a command word could write: an illegal word writes none (R105). -/
def State.wordOutputRegions (s : State) (w : Word) : List (Nat × Nat) :=
  match decode w with
  | .ok i => s.outputRegions i
  | .error _ => []

/-- What a soft reset numbered `tag` leaves at an offset the cancelled command could write: a free byte (R252, U5),
and 0 in a reserved byte of RTAB (U2). -/
def scrambledByte (tag a : Nat) : Byte := if rtabReserved a then 0#8 else Config.cancelledByte tag a

/-- A region filled with the bytes numbered `tag`, which then stay as stored (U5). -/
def Memory.scramble (tag : Nat) (m : Memory) (region : Nat × Nat) : Memory :=
  m.store region.1 ((List.range region.2).map (fun i => scrambledByte tag (region.1 + i)))

/-- Soft reset (R252): registers reset; a pending command is cancelled and what it could write becomes unspecified. -/
def State.softReset (s : State) : State :=
  match s.pending with
  | none => s.clearRegisters
  | some w =>
    { s.clearRegisters with
      mem := (s.wordOutputRegions w).foldl (Memory.scramble s.fresh) s.mem
      fresh := s.fresh + 1 }

end Sys2Proof.Machine
end

