-- ==== Sys2Proof/Machine/Flags.lean ====
section
/-! DEFINITION. The flags: STATUS, its derived bits, the interrupt line, and the host's writes to CTRL and STATUS (spec/10_state.md R24 to R31, R47). -/

namespace Sys2Proof.Machine

/-- The value of STATUS.ERRCODE (R220). -/
def ErrCode.code : ErrCode → BitVec 4
  | .noError => 0#4
  | .illegalCmd => 1#4
  | .badLength => 2#4
  | .badOperand => 3#4
  | .noInverse => 4#4
  | .notInvertible => 5#4

/-- STATUS.ERR: ERRCODE ≠ 0; it has no storage of its own (R28). -/
def State.err (s : State) : Bool := decide (s.errcode.code ≠ 0#4)

/-- The `irq` output: IE ∧ DONE (R47). -/
def State.irq (s : State) : Bool := s.ie && s.done

/-- STATUS as the host reads it (R25): [0] BUSY, [1] DONE, [2] ERR, [3] MATCH, [4] WERR, [11:8] ERRCODE, the rest 0. -/
def State.statusWord (s : State) : Word :=
  0#20 ++ s.errcode.code ++ 0#3 ++ BitVec.ofBool s.werr ++ BitVec.ofBool s.matched ++
    BitVec.ofBool s.err ++ BitVec.ofBool s.done ++ BitVec.ofBool s.busy

/-- CTRL as the host reads it (R24): [0] IE, [1] SRST reads 0, the rest 0. -/
def State.ctrlWord (s : State) : Word := 0#31 ++ BitVec.ofBool s.ie

/-- A host write to CTRL (R24): SRST = 1 is a soft reset, and the written IE is then ignored. -/
def State.writeCtrl (s : State) (w : Word) : State :=
  if w.getLsbD 1 then s.softReset else { s with ie := w.getLsbD 0 }

/-- A host write to STATUS (R25): writing 1 clears DONE and WERR, nothing else changes. -/
def State.writeStatus (s : State) (w : Word) : State :=
  { s with done := s.done && !w.getLsbD 1, werr := s.werr && !w.getLsbD 4 }

end Sys2Proof.Machine
end

