-- ==== Sys2Proof/Machine/Bus.lean ====
section
/-! DEFINITION. The bus port: address decoding, host reads and host writes (spec/20_memory.md R60 to R67, spec/10_state.md R43, spec/70_reset_and_hazards.md R260, R262). -/

namespace Sys2Proof.Machine

/-! ## Address decoding -/

/-- The registers of R43. -/
inductive Reg where
  | id | cfg0 | cfg1 | ctrl | status | cmd | key | opa | opb | res0 | res1 | res2
  | len | kpLen | topn | invCount | retained | nresults
deriving DecidableEq, Repr

/-- What an aligned offset selects (R63). A buffer word carries the index of its first byte. -/
inductive Target where
  | reg (r : Reg)
  /-- a reserved offset of the register page: reads 0, ignores writes -/
  | reserved
  | ibuf (i : Nat)
  | obuf (i : Nat)
  | kpbuf (i : Nat)
  | rtab (i : Nat)
deriving DecidableEq, Repr

/-- The window offset of a register (R43). -/
def Reg.offset : Reg → Nat
  | .id => 0x000
  | .cfg0 => 0x004
  | .cfg1 => 0x008
  | .ctrl => 0x00C
  | .status => 0x010
  | .cmd => 0x014
  | .key => 0x018
  | .opa => 0x01C
  | .opb => 0x020
  | .res0 => 0x024
  | .res1 => 0x028
  | .res2 => 0x02C
  | .len => 0x030
  | .kpLen => 0x034
  | .topn => 0x038
  | .invCount => 0x03C
  | .retained => 0x040
  | .nresults => 0x044

/-- The register at an offset of the register page (R43). -/
def regAt (off : Nat) : Option Reg :=
  match off with
  | 0x000 => some .id
  | 0x004 => some .cfg0
  | 0x008 => some .cfg1
  | 0x00C => some .ctrl
  | 0x010 => some .status
  | 0x014 => some .cmd
  | 0x018 => some .key
  | 0x01C => some .opa
  | 0x020 => some .opb
  | 0x024 => some .res0
  | 0x028 => some .res1
  | 0x02C => some .res2
  | 0x030 => some .len
  | 0x034 => some .kpLen
  | 0x038 => some .topn
  | 0x03C => some .invCount
  | 0x040 => some .retained
  | 0x044 => some .nresults
  | _ => none

/-- The decoding of an aligned offset (R63); `none` is BusError. -/
def targetAt (p : Params) (off : Nat) : Option Target :=
  if off < 0x1000 then
    match regAt off with
    | some r => some (.reg r)
    | none => some .reserved
  else if off < 0x2000 then
    if off - 0x1000 < p.ibufSize then some (.ibuf (off - 0x1000)) else none
  else if off < 0x3000 then
    if off - 0x2000 < p.ibufSize then some (.obuf (off - 0x2000)) else none
  else if off < 0x4000 then
    if off - 0x3000 < p.kpSize then some (.kpbuf (off - 0x3000)) else none
  else if off < 0x5000 then
    if off - 0x4000 < 16 * p.topnMax then some (.rtab (off - 0x4000)) else none
  else none

/-- The offset of a platform address in the window at BASE; `none` is an address that is not the H2ME's (R60). -/
def windowOffset (addr : Nat) : Option (BitVec 15) :=
  if Config.base ≤ addr ∧ addr < Config.base + 0x8000 then some (BitVec.ofNat 15 (addr - Config.base)) else none

/-! ## Reads -/

/-- The constant of ID: the ASCII codes of "H2ME" (R21). -/
def idWord : Word := 0x48324D45#32

/-- CFG0: [12:0] IBUF_SIZE (R22). -/
def cfg0Word (p : Params) : Word := 0#19 ++ BitVec.ofNat 13 p.ibufSize

/-- CFG1: [7:0] KP_SIZE, [15:8] TOPN_MAX, [31:16] NLANES (R23). -/
def cfg1Word (p : Params) : Word :=
  BitVec.ofNat 16 p.nlanes ++ BitVec.ofNat 8 p.topnMax ++ BitVec.ofNat 8 p.kpSize

/-- A 16-bit register as it reads: bits [31:16] are 0 (R34, R35, R37 to R39). -/
def halfWord (h : Half) : Word := h.zeroExtend 32

/-- The stored value of a register, as the host reads it (R43). -/
def State.regWord (s : State) : Reg → Word
  | .id => idWord
  | .cfg0 => cfg0Word s.cfg
  | .cfg1 => cfg1Word s.cfg
  | .ctrl => s.ctrlWord
  | .status => s.statusWord
  | .cmd => s.cmd
  | .key => s.key.pack
  | .opa => halfWord s.opa
  | .opb => halfWord s.opb
  | .res0 => s.res0
  | .res1 => s.res1
  | .res2 => s.res2
  | .len => halfWord s.len
  | .kpLen => halfWord s.kpLen
  | .topn => halfWord s.topn
  | .invCount => s.invCount
  | .retained => s.retained
  | .nresults => s.nresults

/-- The stored value of a target (R63, R64); a reserved offset reads 0, and so does W3
of an RTAB entry, which is stuck at 0 (R45, U2). -/
def State.targetWord (s : State) : Target → Word
  | .reg r => s.regWord r
  | .reserved => 0#32
  | .ibuf i => s.wordAt (ibufAddr i)
  | .obuf i => s.wordAt (obufAddr i)
  | .kpbuf i => s.wordAt (kpbufAddr i)
  | .rtab i => if i % 16 = 12 then 0#32 else s.wordAt (rtabAddr 0 0 + i)

/-- The registers that are volatile outputs (R262). -/
def Reg.volatile : Reg → Bool
  | .id => false
  | .cfg0 => false
  | .cfg1 => false
  | .ctrl => false
  | .status => false
  | .cmd => false
  | .key => false
  | .opa => false
  | .opb => false
  | .res0 => true
  | .res1 => true
  | .res2 => true
  | .len => false
  | .kpLen => false
  | .topn => false
  | .invCount => true
  | .retained => true
  | .nresults => true

/-- The volatile outputs (R262): the result registers and counters, any RTAB word, and any OBUF word that holds a
byte with index below LEN. -/
def State.volatileTarget (s : State) : Target → Bool
  | .reg r => r.volatile
  | .reserved => false
  | .ibuf _ => false
  | .obuf i => decide (i < s.len.toNat)
  | .kpbuf _ => false
  | .rtab _ => true

/-- The port's answer to a transaction, recorded (R60). -/
def State.respond (s : State) (r : Response) : State := { s with resp := some r }

/-- A host read of a target (R67, R262): it changes nothing; of a volatile output while a command is pending it
returns a free word, a fresh one on every read (U4). -/
def State.hostRead (s : State) (t : Target) : State :=
  if s.busy && s.volatileTarget t then
    { s.respond (.data (Config.volatileWord s.fresh)) with fresh := s.fresh + 1 }
  else s.respond (.data (s.targetWord t))

/-! ## Writes -/

/-- A write that is dropped while a command is pending (R260) and sets WERR; otherwise it takes effect. -/
def State.unlessBusy (s : State) (s' : State) : State :=
  if s.busy then { s with werr := true } else s'

/-- A host write to a register (R24, R25, R32 to R39, R43): values are made legal, read-only registers ignore it. -/
def State.writeReg (s : State) (w : Word) : Reg → State
  | .id => s
  | .cfg0 => s
  | .cfg1 => s
  | .ctrl => s.writeCtrl w
  | .status => s.writeStatus w
  | .cmd => s.unlessBusy (s.accept w)
  | .key => s.unlessBusy { s with key := Key.unpack w }
  | .opa => s.unlessBusy { s with opa := w.extractLsb' 0 16 }
  | .opb => s.unlessBusy { s with opb := w.extractLsb' 0 16 }
  | .res0 => s
  | .res1 => s
  | .res2 => s
  | .len => s.unlessBusy { s with len := w.extractLsb' 0 16 }
  | .kpLen => s.unlessBusy { s with kpLen := w.extractLsb' 0 16 }
  | .topn => s.unlessBusy { s with topn := w.extractLsb' 0 16 }
  | .invCount => s
  | .retained => s
  | .nresults => s

/-- A host write to a target (R63 to R65, R260): buffer bytes are stored as written; RTAB and reserved offsets
ignore it. -/
def State.writeTarget (s : State) (w : Word) : Target → State
  | .reg r => s.writeReg w r
  | .reserved => s
  | .ibuf i => s.unlessBusy (s.storeBytes (ibufAddr i) (wordBytes w))
  | .obuf i => s.unlessBusy (s.storeBytes (obufAddr i) (wordBytes w))
  | .kpbuf i => s.unlessBusy (s.storeBytes (kpbufAddr i) (wordBytes w))
  | .rtab _ => s

/-! ## Transactions -/

/-- The target of a transaction: none for a width other than 32 bits (R61), a misaligned offset (R62) or an offset
that R63 gives no target. -/
def Transaction.target (p : Params) (t : Transaction) : Option Target :=
  if t.size = .bits32 ∧ t.off.toNat % 4 = 0 then targetAt p t.off.toNat else none

/-- One host transaction as one event (R60, R68): BusError changes nothing (R61, R62, R224). -/
def State.transact (s : State) (t : Transaction) : State :=
  match t.target s.cfg with
  | none => s.respond .busError
  | some x =>
    match t.op with
    | .read => s.hostRead x
    | .write w => (s.writeTarget w x).respond .ok

/-- `Read(off)`: an aligned 32-bit read, when `off` is aligned (R60). -/
def readTx (off : Nat) : Transaction := ⟨BitVec.ofNat 15 off, .bits32, .read⟩

/-- `Write(off, w)` (R60). -/
def writeTx (off : Nat) (w : Word) : Transaction := ⟨BitVec.ofNat 15 off, .bits32, .write w⟩

end Sys2Proof.Machine
end

