-- ==== Sys2Proof/Machine/Operands.lean ====
section
/-! DEFINITION. The operands of the commands, each read at completion (spec/30_encoding.md R84), and the length checks they share. -/

namespace Sys2Proof.Machine

/-- a = R.OPA[15:0], unsigned. -/
def State.operandA (s : State) : Nat := s.opa.toNat

/-- b, or the modulus m: R.OPB[15:0], unsigned. -/
def State.operandB (s : State) : Nat := s.opb.toNat

/-- L = R.LEN[15:0], unsigned. -/
def State.streamLen (s : State) : Nat := s.len.toNat

/-- n = R.TOPN[15:0], unsigned. -/
def State.resultLimit (s : State) : Nat := s.topn.toNat

/-- P = R.KP_LEN[15:0], unsigned. -/
def State.patternLen (s : State) : Nat := s.kpLen.toNat

/-- The input stream: s[i] = res(IBUF[i]) for i < L. -/
def State.stream (s : State) : List Residue :=
  (List.range s.streamLen).map (fun i => res (s.byteAt (ibufAddr i)))

/-- The known plaintext: p[j] = res(KPBUF[j]) for j < P. -/
def State.pattern (s : State) : List Residue :=
  (List.range s.patternLen).map (fun j => res (s.byteAt (kpbufAddr j)))

/-- LEN exceeds the input buffer (R175, and the first half of the block commands' check). -/
def State.lenTooLong (s : State) : Bool := decide (s.cfg.ibufSize < s.streamLen)

/-- L > IBUF_SIZE or L odd: BAD_LENGTH for ENCRYPT, DECRYPT, SEARCH and SEARCHKP (R152, R155, R191). -/
def State.badBlockLen (s : State) : Bool := s.lenTooLong || decide (s.streamLen % 2 ≠ 0)

/-- P = 0 or P > KP_SIZE: BAD_LENGTH for SEARCHKP (R191). -/
def State.badPatternLen (s : State) : Bool :=
  decide (s.patternLen = 0) || decide (s.cfg.kpSize < s.patternLen)

/-- n > TOPN_MAX: BAD_OPERAND for SEARCH and SEARCHKP (R191). -/
def State.badResultLimit (s : State) : Bool := decide (s.cfg.topnMax < s.resultLimit)

end Sys2Proof.Machine
end

