-- ==== Sys2Proof/Machine/Control.lean ====
section
/-! DEFINITION. NOP and the completion of an illegal command word (spec/40_control.md R104, R105). -/

namespace Sys2Proof.Machine

/-- NOP (R104): no effect beyond the completion. -/
def execNop (s : State) : Host.Outcome State Fault Refusal := succeed s

/-- An illegal command word (R105): ILLEGAL_CMD and no other effect. -/
def completeIllegal (s : State) : Host.Outcome State Fault Refusal := raise .illegalCmd s

end Sys2Proof.Machine
end

