-- ==== Sys2Proof/Machine/Algebra.lean ====
section
/-! DEFINITION. The modular-algebra unit: EGCD, MODINV, DET, INVCHK, INVERT (spec/41_modular_algebra.md). -/

namespace Sys2Proof.Machine

/-! ## Functions -/

/-- The recursion of R120, run for at most `fuel` calls. -/
def egcdFuel : (fuel a b : Nat) → Nat × Int × Int
  | 0, _, b => (b, 0, 1)
  | fuel + 1, a, b =>
    if a = 0 then (b, 0, 1)
    else
      let r := egcdFuel fuel (b % a) a
      (r.1, r.2.2 - (b / a : Nat) * r.2.1, r.2.1)

/-- `egcd(a, b)` of R120. Each call strictly decreases the first argument, so a + 1 calls reach the base case. -/
def egcd (a b : Nat) : Nat × Int × Int := egcdFuel (a + 1) a b

/-- The recursive steps R120 takes before the base case, counted for at most `fuel` calls. -/
def egcdStepsFuel : (fuel a b : Nat) → Nat
  | 0, _, _ => 0
  | fuel + 1, a, b => if a = 0 then 0 else egcdStepsFuel fuel (b % a) a + 1

/-- The recursive steps of `egcd(a, b)` (R122). -/
def egcdSteps (a b : Nat) : Nat := egcdStepsFuel (a + 1) a b

/-- `modinv(a, m)` of R123; `none` is NoInverse. -/
def modinv (a m : Nat) : Option Nat :=
  let r := egcd (a % m) m
  if r.1 ≠ 1 then none else some (r.2.1 % (m : Int)).toNat

/-- `det(K) = (a·d − b·c) mod 26` (R126): exact products, floor reduction. -/
def Key.det (k : Key) : Residue :=
  residueOfInt ((k.a.val : Int) * k.d.val - (k.b.val : Int) * k.c.val)

/-- `isInvertible(K)`: the determinant is coprime to 26 (R128). -/
def Key.isInvertible (k : Key) : Bool := decide (Nat.gcd k.det.val 26 = 1)

/-- The adjugate of K scaled by `di` and reduced mod 26 (R131). -/
def Key.scaledAdjugate (k : Key) (di : Nat) : Key :=
  { a := residueOfInt ((k.d.val : Int) * di)
    b := residueOfInt (-(k.b.val : Int) * di)
    c := residueOfInt (-(k.c.val : Int) * di)
    d := residueOfInt ((k.a.val : Int) * di) }

/-- `invert(K)` of R131; `none` is NotInvertible. The inverse of the determinant exists, since the invertibility
test runs first. -/
def Key.invert (k : Key) : Option Key :=
  if k.isInvertible then (modinv k.det.val 26).map k.scaledAdjugate else none

/-! ## Commands -/

/-- EGCD (R121). -/
def execEgcd (s : State) : Host.Outcome State Fault Refusal :=
  let r := egcd s.operandA s.operandB
  succeed (((s.setRes0 (wordOfNat r.1)).setRes1 (wordOfInt r.2.1)).setRes2 (wordOfInt r.2.2))

/-- MODINV (R124). -/
def execModinv (s : State) : Host.Outcome State Fault Refusal :=
  if s.operandB < 2 then raise .badOperand s
  else
    match modinv s.operandA s.operandB with
    | none => raise .noInverse s
    | some r => succeed (s.setRes0 (wordOfNat r))

/-- DET (R127). -/
def execDet (s : State) : Host.Outcome State Fault Refusal :=
  succeed (s.setRes0 (wordOfNat s.key.det.val))

/-- INVCHK (R130). -/
def execInvchk (s : State) : Host.Outcome State Fault Refusal :=
  succeed ((s.setRes0 (if s.key.isInvertible then 1#32 else 0#32)).setRes1 (wordOfNat s.key.det.val))

/-- INVERT (R133). -/
def execInvert (s : State) : Host.Outcome State Fault Refusal :=
  match s.key.invert, modinv s.key.det.val 26 with
  | some k, some di =>
    succeed (((s.setRes0 k.pack).setRes1 (wordOfNat s.key.det.val)).setRes2 (wordOfNat di))
  | _, _ => raise .notInvertible s

end Sys2Proof.Machine
end

