-- ==== Sys2Proof/Machine/Cipher.lean ====
section
/-! DEFINITION. The cipher block transform: ENCRYPT and DECRYPT (spec/42_cipher_transform.md). -/

namespace Sys2Proof.Machine

/-- The map of one residue pair, (x, y) ↦ (a·x + b·y, c·x + d·y) mod 26 (R14, R150). -/
def Key.applyPair (k : Key) (x y : Residue) : Residue × Residue :=
  (residueOfNat (k.a.val * x.val + k.b.val * y.val), residueOfNat (k.c.val * x.val + k.d.val * y.val))

/-- `apply(K, s)` of R150, for a stream of even length: the pairs are mapped one after another. (No command applies
it to a stream of odd length; a last half pair would be dropped.) -/
def Key.apply (k : Key) : List Residue → List Residue
  | x :: y :: s => (k.applyPair x y).1 :: (k.applyPair x y).2 :: Key.apply k s
  | _ => []

/-- ENCRYPT (R152). -/
def execEncrypt (s : State) : Host.Outcome State Fault Refusal :=
  if s.badBlockLen then raise .badLength s
  else succeed (s.storeObuf (s.key.apply s.stream))

/-- DECRYPT (R155). -/
def execDecrypt (s : State) : Host.Outcome State Fault Refusal :=
  if s.badBlockLen then raise .badLength s
  else
    match s.key.invert with
    | none => raise .notInvertible s
    | some k => succeed (s.storeObuf (k.apply s.stream))

end Sys2Proof.Machine
end

