-- ==== Sys2Proof/Machine/Scorer.lean ====
section
/-! DEFINITION. The plausibility scorer: SCORE (spec/43_scorer.md). -/

namespace Sys2Proof.Machine

/-- The scan of R170 with `skip` residues still to pass over: at a match it counts one and skips the rest of the
match, elsewhere it moves on by one. -/
def countFrom (p : List Residue) : (skip : Nat) → List Residue → Nat
  | _, [] => 0
  | skip + 1, _ :: t => countFrom p skip t
  | 0, x :: t => if p.isPrefixOf (x :: t) then countFrom p (p.length - 1) t + 1 else countFrom p 0 t

/-- `count(s, p)` of R170 for a non-empty pattern: leftmost, non-overlapping. -/
def count (s p : List Residue) : Nat := countFrom p 0 s

/-- The common words THE, AND, TO, OF, IS, IN, IT, YOU, FOR, THAT (R171). -/
def commonWords : List (List Residue) :=
  [[19, 7, 4], [0, 13, 3], [19, 14], [14, 5], [8, 18], [8, 13], [8, 19], [24, 14, 20], [5, 14, 17], [19, 7, 0, 19]]

/-- The vowels A, E, I, O, U (R171), each as a pattern of one residue. -/
def vowels : List (List Residue) := [[0], [4], [8], [14], [20]]

/-- The digrams TH, HE, IN, ER, AN, RE, ON, AT, EN, ED (R171). -/
def digrams : List (List Residue) :=
  [[19, 7], [7, 4], [8, 13], [4, 17], [0, 13], [17, 4], [14, 13], [0, 19], [4, 13], [4, 3]]

/-- The sum of the counts of a list of patterns. -/
def countAll (s : List Residue) (ps : List (List Residue)) : Nat := (ps.map (count s)).sum

/-- `score(s)` of R172. -/
def score (s : List Residue) : Nat :=
  10 * countAll s commonWords + 1 * countAll s vowels + 2 * countAll s digrams

/-- SCORE (R175): an odd LEN is allowed. -/
def execScore (s : State) : Host.Outcome State Fault Refusal :=
  if s.lenTooLong then raise .badLength s
  else succeed (s.setRes0 (wordOfNat (score s.stream)))

end Sys2Proof.Machine
end

