-- ==== Sys2Proof/Machine/Search.lean ====
section
/-! DEFINITION. The key-space search as the sequential function of spec/44_search.md R190, its completion writes, and SEARCH and SEARCHKP. -/

namespace Sys2Proof.Machine

/-! ## Types -/

/-- A retained candidate (R18, R19): key, score and enumeration index. -/
structure Candidate where
  key : Key
  score : Nat
  idx : Nat
deriving DecidableEq, Repr

/-- The result of a search (R190): a single early-exit match, or a ranked list, each with the counts of R196. -/
inductive SearchResult where
  | matched (key : Key) (idx : Nat) (text : List Residue) (inv retained : Nat)
  | ranked (best : List Candidate) (inv retained : Nat)
deriving DecidableEq, Repr

/-! ## The search function -/

/-- The keys: 26^4 (R10, R15). -/
def keySpace : Nat := 456976

/-- `key(i)` of R15. -/
def keyAt (i : Nat) : Key :=
  { a := residueOfNat (i / 17576)
    b := residueOfNat (i / 676)
    c := residueOfNat (i / 26)
    d := residueOfNat i }

/-- `idx(K)` of R15. -/
def Key.index (k : Key) : Nat := k.a.val * 17576 + k.b.val * 676 + k.c.val * 26 + k.d.val

/-- `contains(t, p)` of R194: the pattern stands somewhere in the stream. -/
def contains : (t p : List Residue) → Bool
  | [], p => p.isEmpty
  | x :: t, p => p.isPrefixOf (x :: t) || contains t p

/-- Whether a search exits early on a plaintext: a pattern was supplied and the plaintext contains it (R190). -/
def earlyExit (p : Option (List Residue)) (t : List Residue) : Bool :=
  match p with
  | none => false
  | some q => contains t q

/-- The ranking order of R195: score descending, then enumeration index ascending. -/
def Candidate.before (x y : Candidate) : Bool :=
  decide (y.score < x.score) || (decide (x.score = y.score) && decide (x.idx < y.idx))

/-- A candidate put into a ranked list at its place. -/
def insertRanked (x : Candidate) : List Candidate → List Candidate
  | [] => [x]
  | y :: ys => if x.before y then x :: y :: ys else y :: insertRanked x ys

/-- The retained candidates sorted by the order of R195. -/
def ranking (kept : List Candidate) : List Candidate := kept.foldr insertRanked []

/-- The first `n` entries of the ranking, kept as a list that never grows beyond `n` (R207: "It is enough to keep
a local list of the best"). That it is the prefix of the whole ranking is `Sys2Proof.Laws.best_eq_take_ranking`. -/
def best (n : Nat) (kept : List Candidate) : List Candidate :=
  kept.foldr (fun x ys => (insertRanked x ys).take n) []

/-- The loop of R190 from index `i` for `fuel` more indices, with `inv` invertible keys seen so far and `kept` the
retained candidates so far, latest first. `scoring` is whether a key that does not match is scored (R202, U7). -/
def searchLoop (s : List Residue) (n : Nat) (p : Option (List Residue)) (scoring : Bool) :
    (fuel i inv : Nat) → (kept : List Candidate) → SearchResult
  | 0, _, inv, kept => .ranked (best n kept.reverse) inv kept.length
  | fuel + 1, i, inv, kept =>
    match (keyAt i).invert with
    | none => searchLoop s n p scoring fuel (i + 1) inv kept
    | some k =>
      let t := k.apply s
      if earlyExit p t then .matched (keyAt i) i t (inv + 1) kept.length
      else
        let v := score t
        if scoring && decide (0 < v) then
          searchLoop s n p scoring fuel (i + 1) (inv + 1) (⟨keyAt i, v, i⟩ :: kept)
        else searchLoop s n p scoring fuel (i + 1) (inv + 1) kept

/-- `search(s, n, p)` of R190. A singular key is skipped before the decrypt (R192). (Irreducible to the elaborator,
so that no unification runs the search; the kernel and the compiler run it.) -/
@[irreducible] def searchKeys (s : List Residue) (n : Nat) (p : Option (List Residue)) (scoring : Bool) : SearchResult :=
  searchLoop s n p scoring keySpace 0 0 []

/-! ## Completion writes -/

/-- The 16 bytes of an RTAB entry: W0 = pack(K), W1 = score, W2 = index, W3 = 0 (R45). -/
def entryBytes (x : Candidate) : List Byte :=
  wordBytes x.key.pack ++ wordBytes (wordOfNat x.score) ++ wordBytes (wordOfNat x.idx) ++ wordBytes 0#32

/-- The 16 bytes of one place of RTAB: an entry, or zeros beyond the valid ones (R199). -/
def slotBytes : Option Candidate → List Byte
  | some x => entryBytes x
  | none => List.replicate 16 0#8

/-- All of RTAB: the entries from index 0 on, and zeros up to TOPN_MAX (R197 to R199). -/
def rtabImage (topnMax : Nat) (entries : List Candidate) : List Byte :=
  (List.range topnMax).flatMap (fun j => slotBytes entries[j]?)

/-- Write all of RTAB. -/
def State.storeRtab (s : State) (entries : List Candidate) : State :=
  s.storeBytes (rtabAddr 0 0) (rtabImage s.cfg.topnMax entries)

/-- The completion writes of a search: R197 for a ranked result, R198 for a match, whose score word is 0. -/
def State.writeResult (s : State) : SearchResult → State
  | .ranked best inv retained =>
    (s.storeRtab best).setCounters (wordOfNat best.length) (wordOfNat inv) (wordOfNat retained)
  | .matched key idx text inv retained =>
    (((s.storeRtab [⟨key, 0, idx⟩]).storeObuf text).setCounters 1#32 (wordOfNat inv)
      (wordOfNat retained)).setMatched

/-! ## Commands -/

/-- SEARCH (R200), with the checks of R191 (1 and 3). -/
def execSearch (s : State) : Host.Outcome State Fault Refusal :=
  if s.badBlockLen then raise .badLength s
  else if s.badResultLimit then raise .badOperand s
  else succeed (s.writeResult (searchKeys s.stream s.resultLimit none true))

/-- SEARCHKP (R201), with the checks of R191 (1, 2 and 3). -/
def execSearchkp (s : State) : Host.Outcome State Fault Refusal :=
  if s.badBlockLen then raise .badLength s
  else if s.badPatternLen then raise .badLength s
  else if s.badResultLimit then raise .badOperand s
  else succeed (s.writeResult (searchKeys s.stream s.resultLimit (some s.pattern) s.cfg.kpScoresNonmatch))

end Sys2Proof.Machine
end

