-- ==== Sys2Proof/Machine/Dispatch.lean ====
section
/-! DEFINITION. `exec`: the completion of one command (spec/40_control.md R102), one arm per command. -/

namespace Sys2Proof.Machine

def exec (i : Instr) (s : State) : Host.Outcome State Fault Refusal :=
  match i with
  | .nop => Sys2Proof.Machine.execNop s
  | .egcd => Sys2Proof.Machine.execEgcd s
  | .modinv => Sys2Proof.Machine.execModinv s
  | .det => Sys2Proof.Machine.execDet s
  | .invchk => Sys2Proof.Machine.execInvchk s
  | .invert => Sys2Proof.Machine.execInvert s
  | .encrypt => Sys2Proof.Machine.execEncrypt s
  | .decrypt => Sys2Proof.Machine.execDecrypt s
  | .score => Sys2Proof.Machine.execScore s
  | .search => Sys2Proof.Machine.execSearch s
  | .searchkp => Sys2Proof.Machine.execSearchkp s

end Sys2Proof.Machine
end

