-- ==== Sys2Proof/Machine/Step.lean ====
section
/-! DEFINITION. One step of the machine: the next event of `events`, or a turn of the engine when there is none (spec/40_control.md R102, R106, R107). -/

namespace Sys2Proof.Machine

/-- The completion of a command word (R102): decoding happens at completion (R100). -/
def complete (w : Word) (s : State) : Host.Outcome State Fault Refusal :=
  match decode w with
  | .ok i => exec i s
  | .error _ => completeIllegal s

/-- A turn of the engine: it completes the pending command; with none it has no enabled step. -/
def engineTurn (s : State) : Host.Outcome State Fault Refusal :=
  match s.pending with
  | none => .next s
  | some w => complete w s

/-- One event (R68): a host transaction, a change of `rst`, or a turn of the engine. A transaction while `rst` is
asserted is refused (R250, U10). -/
def handle (e : Event) (s : State) : Host.Outcome State Fault Refusal :=
  match e with
  | .bus t => if s.rst then .refused .transactionDuringReset else .next (s.transact t)
  | .rst level => .next (s.driveRst level)
  | .engine => engineTurn s

/-- One step. While events are listed, the first of them happens; when none is left, the engine has the turn, so
that a pending command always completes after finitely many steps (R106). -/
def step (s : State) : Host.Outcome State Fault Refusal :=
  match s.events with
  | [] => engineTurn s
  | e :: rest => handle e { s with events := rest }

/-- The state with a command word accepted (R100) and the engine's turn next, so that the next step completes it. -/
def State.withFetchWord (s : State) (nbits w : Nat) : State :=
  { s.accept (tableWord nbits w) with events := .engine :: s.events }

end Sys2Proof.Machine
end

