-- ==== Sys2Proof/Machine/Lanes.lean ====
section
/-! DEFINITION. The parallel datapath of spec/44_search.md R204 to R207 as a pure function of a partition of the key space among lanes. No command calls it: lanes, their partition and their schedule are not observable (R206), and the statement about it is that its result is that of the sequential search, whatever the partition. -/

namespace Sys2Proof.Machine

/-- What a lane finds at one index (R204): the filter, the decrypt, the containment test and the score. -/
inductive Evaluation where
  /-- a singular key, skipped (R192) -/
  | singular
  /-- the plaintext contains the pattern -/
  | hit (text : List Residue)
  /-- invertible, no match, and retained or not -/
  | scored (retained : Option Candidate)
deriving DecidableEq, Repr

/-- The evaluation of one index, a pure function of key and ciphertext (R204). -/
def evaluate (s : List Residue) (p : Option (List Residue)) (scoring : Bool) (i : Nat) : Evaluation :=
  match (keyAt i).invert with
  | none => .singular
  | some k =>
    let t := k.apply s
    if earlyExit p t then .hit t
    else if scoring && decide (0 < score t) then .scored (some ⟨keyAt i, score t, i⟩)
    else .scored none

/-- The index is an invertible key. -/
def Evaluation.isInvertible : Evaluation → Bool
  | .singular => false
  | .hit _ => true
  | .scored _ => true

/-- The index is an early-exit match. -/
def Evaluation.isHit : Evaluation → Bool
  | .singular => false
  | .hit _ => true
  | .scored _ => false

/-- The candidate retained at the index, if any. -/
def Evaluation.candidate? : Evaluation → Option Candidate
  | .singular => none
  | .hit _ => none
  | .scored c => c

/-- What one lane hands to the merge (R207): its count of invertible keys, its count of retained candidates and
its local list of the best `n`. -/
structure LaneOutput where
  inv : Nat
  retained : Nat
  best : List Candidate
deriving DecidableEq, Repr

/-- One lane's scan of its slice of the enumeration, in the order the slice lists it. -/
def laneScan (s : List Residue) (n : Nat) (p : Option (List Residue)) (scoring : Bool) (slice : List Nat) : LaneOutput :=
  let evals := slice.map (evaluate s p scoring)
  let kept := evals.filterMap Evaluation.candidate?
  { inv := (evals.filter Evaluation.isInvertible).length
    retained := kept.length
    best := best n kept }

/-- The matching indices that a lane reports to the collector. -/
def laneHits (s : List Residue) (p : Option (List Residue)) (scoring : Bool) (slice : List Nat) : List Nat :=
  slice.filter (fun i => (evaluate s p scoring i).isHit)

/-- The merge (R205, R207). With a match at all, the lowest index wins and the counts cover the indices up to it;
with none, the lanes' local lists are ranked together and their counts added. -/
def laneSearch (s : List Residue) (n : Nat) (p : Option (List Residue)) (scoring : Bool) (slices : List (List Nat)) :
    SearchResult :=
  match (slices.flatMap (laneHits s p scoring)).min? with
  | some i =>
    let below := slices.map (fun slice => laneScan s n p scoring (slice.filter (fun j => decide (j < i))))
    match evaluate s p scoring i with
    | .hit t => .matched (keyAt i) i t ((below.map LaneOutput.inv).sum + 1) (below.map LaneOutput.retained).sum
    | .singular => .ranked [] 0 0
    | .scored _ => .ranked [] 0 0
  | none =>
    let all := slices.map (laneScan s n p scoring)
    .ranked (best n (all.flatMap LaneOutput.best)) (all.map LaneOutput.inv).sum (all.map LaneOutput.retained).sum

end Sys2Proof.Machine
end

