-- ==== Sys2Proof/WellFormed.lean ====
section
/-! DEFINITION. Well-formedness: a command has no field that could be ill-formed; the parameters have the legal ranges of spec/00_scope.md R9. -/

namespace Sys2Proof

/-- Every command is well formed: it holds no register number, immediate or mode (R80, R84). -/
def Instr.wellFormed : Instr → Bool
  | .nop => true
  | .egcd => true
  | .modinv => true
  | .det => true
  | .invchk => true
  | .invert => true
  | .encrypt => true
  | .decrypt => true
  | .score => true
  | .search => true
  | .searchkp => true

/-- IBUF_SIZE is a multiple of 4 in [4, 4096] (R9). -/
def Params.ibufSizeOk (p : Params) : Bool :=
  decide (p.ibufSize % 4 = 0) && decide (4 ≤ p.ibufSize) && decide (p.ibufSize ≤ 4096)

/-- KP_SIZE is a multiple of 4 in [4, 252] (R9). -/
def Params.kpSizeOk (p : Params) : Bool :=
  decide (p.kpSize % 4 = 0) && decide (4 ≤ p.kpSize) && decide (p.kpSize ≤ 252)

/-- TOPN_MAX is in [1, 255] (R9). -/
def Params.topnMaxOk (p : Params) : Bool :=
  decide (1 ≤ p.topnMax) && decide (p.topnMax ≤ 255)

/-- NLANES is in [1, 65535] (R9). -/
def Params.nlanesOk (p : Params) : Bool :=
  decide (1 ≤ p.nlanes) && decide (p.nlanes ≤ 65535)

/-- The parameters lie in the legal ranges of R9. -/
def Params.legal (p : Params) : Bool :=
  p.ibufSizeOk && p.kpSizeOk && p.topnMaxOk && p.nlanesOk

end Sys2Proof
end

