-- ==== Sys2Proof/Safety.lean ====
section
/-! DEFINITION. What a safe run of the H2ME is: the host's contract with `rst` (spec/70_reset_and_hazards.md R254), and the invariant of the machine that statements over all states rest on. -/

namespace Sys2Proof.Machine

/-- The host respects `rst`: from a level of `rst` on, no transaction is issued while it is asserted (R254, step 2). -/
def respectsReset : (level : Bool) → List Event → Bool
  | _, [] => true
  | level, .bus _ :: es => !level && respectsReset level es
  | _, .rst level :: es => respectsReset level es
  | level, .engine :: es => respectsReset level es

/-- A run of `n` steps is safe: it meets no refusal and no fault. -/
def SafeRun (n : Nat) (s : State) : Prop := ∃ t, Host.Core.run core n s = .next t

/-- The invariant of the machine. Every part follows from rules of the spec and rules out only states that no run
from reset reaches. -/
structure State.Inv (s : State) : Prop where
  /-- the parameters are legal (R9) -/
  cfgLegal : s.cfg.legal = true
  /-- the memory has its canonical form -/
  memWf : s.mem.wf
  /-- memory lists buffer bytes only (R44, R63), and none of W3 of an RTAB entry, which so reads 0 (R45, U2) -/
  memInBuffers : ∀ x ∈ s.mem, bufferAddr s.cfg x.1 = true
  /-- while a command is pending, CMD holds it and DONE, ERRCODE and MATCH are clear (R32, R100, R262) -/
  pendingClear : ∀ w, s.pending = some w →
    s.cmd = w ∧ s.done = false ∧ s.errcode = .noError ∧ s.matched = false
  /-- MATCH = 1 only beside a single result without error (R29, R198) -/
  matchedSingle : s.matched = true → s.errcode = .noError ∧ s.nresults = 1#32
  /-- the valid entries fit RTAB (R42) -/
  nresultsFits : s.nresults.toNat ≤ s.cfg.topnMax
  /-- a retained candidate is an invertible key, and a key is one of 26^4 (R196) -/
  countsOrdered : s.retained.toNat ≤ s.invCount.toNat ∧ s.invCount.toNat ≤ keySpace
  /-- while `rst` is asserted the machine is in reset: nothing pending, no flag set, interrupt masked (R250) -/
  inReset : s.rst = true → s.pending = none ∧ s.done = false ∧ s.werr = false ∧ s.ie = false

/-! ## The terms in which statements about the search speak -/

/-- How many of the keys with index below `n` are invertible (R196). -/
def invertibleBelow (n : Nat) : Nat := ((List.range n).filter (fun i => (keyAt i).isInvertible)).length

/-- The candidate that a search on the stream `st` retains at index `i` (R190, R19): an invertible key whose
plaintext scores above 0. -/
def retainedAt (st : List Residue) (i : Nat) : Option Candidate :=
  match (keyAt i).invert with
  | none => none
  | some k => if 0 < score (k.apply st) then some ⟨keyAt i, score (k.apply st), i⟩ else none

/-- The retained candidates with index below `n`, in enumeration order. -/
def retainedBelow (st : List Residue) (n : Nat) : List Candidate := (List.range n).filterMap (retainedAt st)

/-- The key with index `i` is invertible and its plaintext contains the pattern (R190, R194). -/
def matchesAt (st p : List Residue) (i : Nat) : Prop :=
  ∃ k, (keyAt i).invert = some k ∧ contains (k.apply st) p = true

/-- The regions the host writes: first offset and size of IBUF, OBUF and KPBUF (R44, R63). -/
def hostBuffers (p : Params) : List (Nat × Nat) :=
  [(0x1000, p.ibufSize), (0x2000, p.ibufSize), (0x3000, p.kpSize)]

end Sys2Proof.Machine
end

