-- ==== Sys2Proof/Certificates/Slice0/Obligations.lean ====
section
/-! DEFINITION. The statements for the provers, from the numbered rules of spec/. -/

open Sys2Proof Sys2Proof.Machine

/-! ## Encoding -/

/-- R82: eleven words written out from the opcode map, and three illegal ones (R83, R105). -/
def Obligations.WordsOfTheOpcodeMapDecode : Prop :=
  decode 0x00000000#32 = .ok .nop ∧ decode 0x00000001#32 = .ok .egcd ∧ decode 0x00000002#32 = .ok .modinv ∧
  decode 0x00000003#32 = .ok .det ∧ decode 0x00000004#32 = .ok .invchk ∧ decode 0x00000005#32 = .ok .invert ∧
  decode 0x00000006#32 = .ok .encrypt ∧ decode 0x00000007#32 = .ok .decrypt ∧ decode 0x00000008#32 = .ok .score ∧
  decode 0x00000009#32 = .ok .search ∧ decode 0x0000000A#32 = .ok .searchkp ∧
  decode 0x0000000B#32 = .error .unassignedOpcode ∧ decode 0x00000101#32 = .error .reservedBits ∧
  decode 0x80000005#32 = .error .reservedBits

/-- R82, R87: the encoding of each command is `zext_32(OP)`, and a word decodes to a command exactly when it is that
command's encoding. -/
def Obligations.DecodeMatchesExactlyTheEncoding : Prop :=
  (∀ (w : Word) (i : Instr), decode w = .ok i ↔ w = encode i) ∧
  encode .nop = 0x00#32 ∧ encode .egcd = 0x01#32 ∧ encode .modinv = 0x02#32 ∧ encode .det = 0x03#32 ∧
  encode .invchk = 0x04#32 ∧ encode .invert = 0x05#32 ∧ encode .encrypt = 0x06#32 ∧ encode .decrypt = 0x07#32 ∧
  encode .score = 0x08#32 ∧ encode .search = 0x09#32 ∧ encode .searchkp = 0x0A#32

/-- R86 (the spec derives it from R80, R82 and R83): decoding is total; it is Illegal exactly for RSV ≠ 0 and for OP above 0x0A. -/
def Obligations.DecodeIsTotalAndRejectsReserved : Prop :=
  ∀ w : Word,
    (w.extractLsb' 8 24 ≠ 0#24 → decode w = .error .reservedBits) ∧
    (w.extractLsb' 8 24 = 0#24 → 0x0B ≤ (w.extractLsb' 0 8).toNat → decode w = .error .unassignedOpcode) ∧
    (w.extractLsb' 8 24 = 0#24 → (w.extractLsb' 0 8).toNat < 0x0B →
      ∃ i, decode w = .ok i ∧ opcode i = w.extractLsb' 0 8)

/-! ## The step and the command lifecycle -/

/-- R102 and R107, over the schedule of assumption log 1 (R250's refusal: log 7; `withFetchWord`: log 8). A step takes
the first event, or gives the engine a turn when there is none; a turn of the engine
runs the pending word's command; a transaction with `rst` asserted is refused. -/
def Obligations.StepRunsTheDecodedCommand : Prop :=
  (∀ (s : State) (es : List Event) (w : Word) (i : Instr),
    (s.events = [] ∧ es = [] ∨ s.events = .engine :: es) → s.pending = some w → decode w = .ok i →
      step s = exec i { s with events := es }) ∧
  (∀ (s : State) (es : List Event),
    (s.events = [] ∧ es = [] ∨ s.events = .engine :: es) → s.pending = none →
      step s = .next { s with events := es }) ∧
  (∀ (s : State) (x : Transaction) (es : List Event), s.events = .bus x :: es →
    (s.rst = false → step s = .next (State.transact { s with events := es } x)) ∧
    (s.rst = true → step s = .refused .transactionDuringReset)) ∧
  (∀ (s : State) (level : Bool) (es : List Event), s.events = .rst level :: es →
    step s = .next (State.driveRst { s with events := es } level)) ∧
  (∀ (s : State) (i : Instr), step (s.withFetchWord 32 (encode i).toNat) = exec i (s.accept (encode i)))

/-- R100: every word written to CMD while no command is pending is accepted, and nothing else changes (the
response is the model's record of the transaction). -/
def Obligations.AcceptanceIsOneEvent : Prop :=
  ∀ (s : State) (w : Word), s.pending = none →
    s.transact (writeTx 0x014 w) =
      { s with cmd := w, done := false, errcode := .noError, matched := false, pending := some w, resp := some .ok }

/-- R102: every command completes, on every state: DONE is set and nothing is pending. -/
def Obligations.EveryCommandCompletes : Prop :=
  ∀ (i : Instr) (s : State), ∃ t, exec i s = .next t ∧ t.done = true ∧ t.pending = none ∧
    t.cfg = s.cfg ∧ t.cmd = s.cmd ∧ t.ie = s.ie ∧ t.werr = s.werr ∧ t.key = s.key ∧ t.opa = s.opa ∧ t.opb = s.opb ∧
    t.len = s.len ∧ t.kpLen = s.kpLen ∧ t.topn = s.topn ∧ t.epoch = s.epoch

/-- R222: a command that completes with an error changes ERRCODE, DONE and BUSY only, and the next command is
accepted normally. -/
def Obligations.ErrorCompletionWritesNothingElse : Prop :=
  ∀ (i : Instr) (s t : State), exec i s = .next t → t.errcode ≠ .noError →
    t = { s with errcode := t.errcode, done := true, pending := none } ∧
    (s.matched = false → t.matched = false) ∧
    (∀ a, t.byteAt a = s.byteAt a) ∧
    (∀ w, (t.transact (writeTx 0x014 w)).pending = some w)

/-- R104: NOP has no effect beyond the completion. -/
def Obligations.NopCompletes : Prop :=
  ∀ s : State, exec .nop s = .next { s with errcode := .noError, done := true, pending := none }

/-- R105: an illegal word completes with ILLEGAL_CMD and no other effect; CMD keeps the word. -/
def Obligations.IllegalWordCompletesWithIllegalCmd : Prop :=
  ∀ (s : State) (es : List Event) (w : Word) (e : DecodeError),
    (s.events = [] ∧ es = [] ∨ s.events = .engine :: es) → s.pending = some w → decode w = .error e →
      step s = .next { s with events := es, errcode := .illegalCmd, done := true, pending := none }

/-- R103 (the spec derives it from R100, R102 and R260) and R9: the operands and buffers fix what a completion
writes. NLANES, the flags, the earlier results and the schedule change nothing in it: a register that the command does
not write keeps its value, whatever that is. -/
def Obligations.CompletionIgnoresLanesAndSchedule : Prop :=
  ∀ (i : Instr) (s : State), ∃ (code : ErrCode) (mem : Memory) (hit : Option Bool)
      (w0 w1 w2 inv kept n : Option Word),
    ∀ (lanes fresh : Nat) (ie done matched werr rst : Bool) (errcode : ErrCode)
      (cmd res0 res1 res2 invCount retained nresults : Word) (pending : Option Word) (events : List Event)
      (resp : Option Response),
      exec i { s with
          cfg := { s.cfg with nlanes := lanes }, ie := ie, done := done, matched := matched, werr := werr,
          errcode := errcode, cmd := cmd, res0 := res0, res1 := res1, res2 := res2, invCount := invCount,
          retained := retained, nresults := nresults, pending := pending, rst := rst, events := events,
          resp := resp, fresh := fresh } =
        .next { s with
          cfg := { s.cfg with nlanes := lanes }, ie := ie, done := true, matched := hit.getD matched, werr := werr,
          errcode := code, cmd := cmd, res0 := w0.getD res0, res1 := w1.getD res1, res2 := w2.getD res2,
          invCount := inv.getD invCount, retained := kept.getD retained, nresults := n.getD nresults, mem := mem,
          pending := none, rst := rst, events := events, resp := resp, fresh := fresh }

/-! ## Modular algebra -/

/-- R120: the recursion of the extended GCD, which the spec takes from general knowledge (93 G1; assumption log 12);
each step makes the first argument smaller. -/
def Obligations.EgcdIsTheEuclideanRecursion : Prop :=
  (∀ b : Nat, egcd 0 b = (b, 0, 1)) ∧
  (∀ a b : Nat, 0 < a →
    egcd a b = ((egcd (b % a) a).1, (egcd (b % a) a).2.2 - ((b / a : Nat) : Int) * (egcd (b % a) a).2.1,
      (egcd (b % a) a).2.1) ∧ b % a < a)

/-- R122 (the spec derives the bounds from R120; assumption log 12): Bézout, the bounds, the step count and the special cases, for 16-bit operands. -/
def Obligations.EgcdMeetsItsContract : Prop :=
  (∀ a b : Nat, a ≤ 65535 → b ≤ 65535 →
    (a : Int) * (egcd a b).2.1 + (b : Int) * (egcd a b).2.2 = ((egcd a b).1 : Int) ∧
    (egcd a b).1 = Nat.gcd a b ∧ (egcd a b).1 ≤ 65535 ∧
    (egcd a b).2.1.natAbs ≤ max (max a b) 1 ∧ (egcd a b).2.2.natAbs ≤ max (max a b) 1 ∧
    -(65536 : Int) ≤ (egcd a b).2.1 ∧ (egcd a b).2.1 < 65536 ∧
    -(65536 : Int) ≤ (egcd a b).2.2 ∧ (egcd a b).2.2 < 65536 ∧
    egcdSteps a b ≤ 23) ∧
  (∀ b : Nat, egcd 0 b = (b, 0, 1)) ∧
  (∀ a : Nat, 0 < a → egcd a 0 = (a, 1, 0)) ∧
  (∀ a : Nat, 0 < a → egcd a a = (a, 1, 0)) ∧
  egcd 0 0 = (0, 0, 1)

/-- R121: EGCD completes on every operand pair, writes (g, x, y) to RES0, RES1, RES2 and nothing else; the
coefficients read as two's complement satisfy Bézout's identity. -/
def Obligations.EgcdCompletes : Prop :=
  ∀ s : State, ∃ t, exec .egcd s = .next t ∧
    t = { s with res0 := t.res0, res1 := t.res1, res2 := t.res2, errcode := .noError, done := true, pending := none } ∧
    (∀ a, t.byteAt a = s.byteAt a) ∧
    t.res0.toNat = (egcd s.opa.toNat s.opb.toNat).1 ∧
    t.res1.toInt = (egcd s.opa.toNat s.opb.toNat).2.1 ∧
    t.res2.toInt = (egcd s.opa.toNat s.opb.toNat).2.2 ∧
    (s.opa.toNat : Int) * t.res1.toInt + (s.opb.toNat : Int) * t.res2.toInt = (t.res0.toNat : Int) ∧
    t.res0.toNat = Nat.gcd s.opa.toNat s.opb.toNat

/-- R123: the modular inverse fails exactly when gcd(a mod m, m) ≠ 1, and otherwise is an inverse below m; that it is the
only one is the spec's own derivation. -/
def Obligations.ModinvIsTheUniqueInverse : Prop :=
  ∀ a m : Nat, 2 ≤ m →
    (modinv a m = none ↔ Nat.gcd (a % m) m ≠ 1) ∧
    (∀ r, modinv a m = some r → r < m ∧ (a * r) % m = 1) ∧
    (∀ r, r < m → (a * r) % m = 1 → modinv a m = some r)

/-- R124: MODINV. BAD_OPERAND for a modulus below 2, NO_INVERSE when the gcd is not 1, and otherwise RES0 is the
inverse and nothing else is written. -/
def Obligations.ModinvCompletesOrReportsItsError : Prop :=
  ∀ s : State,
    (s.opb.toNat < 2 →
      exec .modinv s = .next { s with errcode := .badOperand, done := true, pending := none }) ∧
    (2 ≤ s.opb.toNat → Nat.gcd (s.opa.toNat % s.opb.toNat) s.opb.toNat ≠ 1 →
      exec .modinv s = .next { s with errcode := .noInverse, done := true, pending := none }) ∧
    (2 ≤ s.opb.toNat → Nat.gcd (s.opa.toNat % s.opb.toNat) s.opb.toNat = 1 →
      ∃ t, exec .modinv s = .next t ∧
        t = { s with res0 := t.res0, errcode := .noError, done := true, pending := none } ∧
        (∀ a, t.byteAt a = s.byteAt a) ∧
        t.res0.toNat < s.opb.toNat ∧ (s.opa.toNat * t.res0.toNat) % s.opb.toNat = 1)

/-- R126, R127: DET writes (a·d − b·c) mod 26, with the floor remainder, to RES0 and nothing else. -/
def Obligations.DetCompletes : Prop :=
  ∀ s : State, ∃ t, exec .det s = .next t ∧
    t = { s with res0 := t.res0, errcode := .noError, done := true, pending := none } ∧
    (∀ a, t.byteAt a = s.byteAt a) ∧
    (t.res0.toNat : Int) =
      ((s.key.a.val : Int) * (s.key.d.val : Int) - (s.key.b.val : Int) * (s.key.c.val : Int)) % 26

/-- R130: INVCHK writes 1 or 0 to RES0 as the determinant is coprime to 26 or not, and the determinant to RES1;
a singular key is a result, not an error. -/
def Obligations.InvchkCompletes : Prop :=
  ∀ s : State, ∃ t, exec .invchk s = .next t ∧
    t = { s with res0 := t.res0, res1 := t.res1, errcode := .noError, done := true, pending := none } ∧
    (∀ a, t.byteAt a = s.byteAt a) ∧
    t.res0 = (if Nat.gcd t.res1.toNat 26 = 1 then 1#32 else 0#32) ∧
    (t.res1.toNat : Int) =
      ((s.key.a.val : Int) * (s.key.d.val : Int) - (s.key.b.val : Int) * (s.key.c.val : Int)) % 26

/-- R128: the invertibility test; and, derived by the spec from R123 and R126, the twelve determinants that pass it
and their inverses mod 26. -/
def Obligations.InvertibleDeterminantsAndTheirInverses : Prop :=
  (∀ k : Key, k.isInvertible = true ↔ Nat.gcd k.det.val 26 = 1) ∧
  (∀ k : Key, k.isInvertible = true ↔ k.det.val ∈ [1, 3, 5, 7, 9, 11, 15, 17, 19, 21, 23, 25]) ∧
  (∀ p ∈ [(1, 1), (3, 9), (5, 21), (7, 15), (9, 3), (11, 19), (15, 7), (17, 23), (19, 11), (21, 5), (23, 17),
    (25, 25)], modinv p.1 26 = some p.2)

/-- R131: the inverse key is the adjugate scaled by the inverse of the determinant, each entry in [0, 26). -/
def Obligations.InverseKeyIsTheScaledAdjugate : Prop :=
  ∀ k : Key,
    (Nat.gcd k.det.val 26 ≠ 1 → k.invert = none) ∧
    (Nat.gcd k.det.val 26 = 1 → ∃ di k', modinv k.det.val 26 = some di ∧ k.invert = some k' ∧
      (k'.a.val : Int) = ((k.d.val : Int) * di) % 26 ∧ (k'.b.val : Int) = (-(k.b.val : Int) * di) % 26 ∧
      (k'.c.val : Int) = (-(k.c.val : Int) * di) % 26 ∧ (k'.d.val : Int) = ((k.a.val : Int) * di) % 26)

/-- R133: INVERT. NOT_INVERTIBLE for a singular key; otherwise RES0, RES1 and RES2 are the packed inverse, the
determinant and its inverse, and KEY and everything else keep their values. -/
def Obligations.InvertCompletesOrReportsNotInvertible : Prop :=
  ∀ s : State,
    (Nat.gcd s.key.det.val 26 ≠ 1 →
      exec .invert s = .next { s with errcode := .notInvertible, done := true, pending := none }) ∧
    (Nat.gcd s.key.det.val 26 = 1 → ∃ t k, exec .invert s = .next t ∧
      t = { s with res0 := t.res0, res1 := t.res1, res2 := t.res2, errcode := .noError, done := true, pending := none } ∧
      (∀ a, t.byteAt a = s.byteAt a) ∧
      s.key.invert = some k ∧ t.res0 = k.pack ∧ t.res1.toNat = s.key.det.val ∧
      modinv s.key.det.val 26 = some t.res2.toNat)

/-- R132: the four laws of invert ((1) and (4) are derived by the spec from R131). -/
def Obligations.InvertLaws : Prop :=
  ∀ k : Key, k.isInvertible = true → ∃ k', k.invert = some k' ∧
    ((k'.a.val * k.a.val + k'.b.val * k.c.val) % 26 = 1 ∧ (k'.a.val * k.b.val + k'.b.val * k.d.val) % 26 = 0 ∧
      (k'.c.val * k.a.val + k'.d.val * k.c.val) % 26 = 0 ∧ (k'.c.val * k.b.val + k'.d.val * k.d.val) % 26 = 1) ∧
    ((k.a.val * k'.a.val + k.b.val * k'.c.val) % 26 = 1 ∧ (k.a.val * k'.b.val + k.b.val * k'.d.val) % 26 = 0 ∧
      (k.c.val * k'.a.val + k.d.val * k'.c.val) % 26 = 0 ∧ (k.c.val * k'.b.val + k.d.val * k'.d.val) % 26 = 1) ∧
    k'.invert = some k ∧
    (∀ x y : Residue, k'.applyPair (k.applyPair x y).1 (k.applyPair x y).2 = (x, y)) ∧
    k'.isInvertible = true ∧ modinv k.det.val 26 = some k'.det.val

/-- R129: the number of invertible keys (derived by the spec, by enumeration). -/
def Obligations.InvertibleKeyCount : Prop :=
  invertibleBelow 456976 = 157248

/-- R15: the enumeration index and its inverse (derived by the spec from R14 and the order of enumeration). -/
def Obligations.EnumerationIndexIsABijection : Prop :=
  (∀ k : Key, k.index = k.a.val * 17576 + k.b.val * 676 + k.c.val * 26 + k.d.val ∧ k.index < 456976 ∧
    keyAt k.index = k) ∧
  (∀ i : Nat, i < 456976 → (keyAt i).index = i ∧
    (keyAt i).a.val = i / 17576 ∧ (keyAt i).b.val = (i / 676) % 26 ∧ (keyAt i).c.val = (i / 26) % 26 ∧
    (keyAt i).d.val = i % 26)

/-- R14: the packing of a key, its inverse on every word, and the linear map a key stands for. -/
def Obligations.KeyPackingAndMap : Prop :=
  (∀ k : Key, (k.pack.extractLsb' 0 8).toNat = k.a.val ∧ (k.pack.extractLsb' 8 8).toNat = k.b.val ∧
    (k.pack.extractLsb' 16 8).toNat = k.c.val ∧ (k.pack.extractLsb' 24 8).toNat = k.d.val ∧
    Key.unpack k.pack = k) ∧
  (∀ w : Word, (Key.unpack w).a.val = (w.extractLsb' 0 8).toNat % 26 ∧
    (Key.unpack w).b.val = (w.extractLsb' 8 8).toNat % 26 ∧
    (Key.unpack w).c.val = (w.extractLsb' 16 8).toNat % 26 ∧
    (Key.unpack w).d.val = (w.extractLsb' 24 8).toNat % 26) ∧
  (∀ (k : Key) (x y : Residue),
    (k.applyPair x y).1.val = (k.a.val * x.val + k.b.val * y.val) % 26 ∧
    (k.applyPair x y).2.val = (k.c.val * x.val + k.d.val * y.val) % 26)

/-! ## Cipher transform -/

/-- R152: ENCRYPT. BAD_LENGTH for an odd or too long LEN; otherwise OBUF[0 … LEN) holds the transformed pairs of
IBUF's residues, and no other byte and no register changes. Any key is allowed. -/
def Obligations.EncryptCompletesOrReportsBadLength : Prop :=
  ∀ s : State,
    (s.cfg.ibufSize < s.len.toNat ∨ s.len.toNat % 2 ≠ 0 →
      exec .encrypt s = .next { s with errcode := .badLength, done := true, pending := none }) ∧
    (s.len.toNat ≤ s.cfg.ibufSize → s.len.toNat % 2 = 0 → ∃ t, exec .encrypt s = .next t ∧
      t = { s with mem := t.mem, errcode := .noError, done := true, pending := none } ∧
      (∀ i, 2 * i + 1 < s.len.toNat →
        (t.byteAt (obufAddr (2 * i))).toNat =
          (s.key.a.val * ((s.byteAt (ibufAddr (2 * i))).toNat % 26) +
            s.key.b.val * ((s.byteAt (ibufAddr (2 * i + 1))).toNat % 26)) % 26 ∧
        (t.byteAt (obufAddr (2 * i + 1))).toNat =
          (s.key.c.val * ((s.byteAt (ibufAddr (2 * i))).toNat % 26) +
            s.key.d.val * ((s.byteAt (ibufAddr (2 * i + 1))).toNat % 26)) % 26) ∧
      (∀ a, (a < obufAddr 0 ∨ obufAddr s.len.toNat ≤ a) → t.byteAt a = s.byteAt a))

/-- R155: DECRYPT. BAD_LENGTH first, then NOT_INVERTIBLE (also for LEN = 0); otherwise OBUF[0 … LEN) holds the pairs
transformed by the inverse key, and no other byte and no register changes. -/
def Obligations.DecryptCompletesOrReportsItsError : Prop :=
  ∀ s : State,
    (s.cfg.ibufSize < s.len.toNat ∨ s.len.toNat % 2 ≠ 0 →
      exec .decrypt s = .next { s with errcode := .badLength, done := true, pending := none }) ∧
    (s.len.toNat ≤ s.cfg.ibufSize → s.len.toNat % 2 = 0 → Nat.gcd s.key.det.val 26 ≠ 1 →
      exec .decrypt s = .next { s with errcode := .notInvertible, done := true, pending := none }) ∧
    (s.len.toNat ≤ s.cfg.ibufSize → s.len.toNat % 2 = 0 → Nat.gcd s.key.det.val 26 = 1 →
      ∃ t k, s.key.invert = some k ∧ exec .decrypt s = .next t ∧
      t = { s with mem := t.mem, errcode := .noError, done := true, pending := none } ∧
      (∀ i, 2 * i + 1 < s.len.toNat →
        (t.byteAt (obufAddr (2 * i))).toNat =
          (k.a.val * ((s.byteAt (ibufAddr (2 * i))).toNat % 26) +
            k.b.val * ((s.byteAt (ibufAddr (2 * i + 1))).toNat % 26)) % 26 ∧
        (t.byteAt (obufAddr (2 * i + 1))).toNat =
          (k.c.val * ((s.byteAt (ibufAddr (2 * i))).toNat % 26) +
            k.d.val * ((s.byteAt (ibufAddr (2 * i + 1))).toNat % 26)) % 26) ∧
      (∀ a, (a < obufAddr 0 ∨ obufAddr s.len.toNat ≤ a) → t.byteAt a = s.byteAt a))

/-- R151 (derived by the spec from R132): the transform under a key and under its inverse undo each other, on every stream of even length. -/
def Obligations.TransformsUndoEachOther : Prop :=
  ∀ (k k' : Key) (st : List Residue), k.invert = some k' → st.length % 2 = 0 →
    k'.apply (k.apply st) = st ∧ k.apply (k'.apply st) = st

/-- The round trip of the machine (rests on R151, R152, R155 and vector V-X7): a DECRYPT of what ENCRYPT wrote, under
the same invertible key, restores the residues of the plaintext in OBUF. -/
def Obligations.EncryptThenDecryptRestoresThePlaintext : Prop :=
  ∀ s t u : State, Nat.gcd s.key.det.val 26 = 1 → s.len.toNat ≤ s.cfg.ibufSize → s.len.toNat % 2 = 0 →
    exec .encrypt s = .next t → u.cfg = s.cfg → u.key = s.key → u.len = s.len →
    (∀ i, i < s.len.toNat → u.byteAt (ibufAddr i) = t.byteAt (obufAddr i)) →
    ∃ v, exec .decrypt u = .next v ∧ v.errcode = .noError ∧
      ∀ i, i < s.len.toNat → (v.byteAt (obufAddr i)).toNat = (s.byteAt (ibufAddr i)).toNat % 26

/-! ## Scorer -/

/-- R170, whose scan the spec takes from general knowledge (93 G4; assumption log 12): the leftmost non-overlapping count of a non-empty pattern: a match counts one and is skipped whole,
elsewhere the scan moves on by one, and a stream shorter than the pattern counts 0. -/
def Obligations.CountIsLeftmostNonOverlapping : Prop :=
  ∀ st p : List Residue, p ≠ [] →
    (st.length < p.length → count st p = 0) ∧
    (p.length ≤ st.length → st.take p.length = p → count st p = 1 + count (st.drop p.length) p) ∧
    (p.length ≤ st.length → st.take p.length ≠ p → count st p = count (st.drop 1) p)

/-- R171, R172, R175: SCORE. BAD_LENGTH when LEN exceeds IBUF_SIZE; otherwise RES0 is the weighted sum over the
three lists, and nothing else is written. An odd LEN is allowed. -/
def Obligations.ScoreCompletesOrReportsBadLength : Prop :=
  ∀ s : State, s.cfg.legal = true →
    (s.cfg.ibufSize < s.len.toNat →
      exec .score s = .next { s with errcode := .badLength, done := true, pending := none }) ∧
    (s.len.toNat ≤ s.cfg.ibufSize → ∃ t st, exec .score s = .next t ∧
      t = { s with res0 := t.res0, errcode := .noError, done := true, pending := none } ∧
      (∀ a, t.byteAt a = s.byteAt a) ∧
      st.length = s.len.toNat ∧
      (∀ i (h : i < st.length), (st[i] : Residue).val = (s.byteAt (ibufAddr i)).toNat % 26) ∧
      t.res0.toNat =
        10 * (count st [19, 7, 4] + count st [0, 13, 3] + count st [19, 14] + count st [14, 5] + count st [8, 18] +
          count st [8, 13] + count st [8, 19] + count st [24, 14, 20] + count st [5, 14, 17] +
          count st [19, 7, 0, 19]) +
        (count st [0] + count st [4] + count st [8] + count st [14] + count st [20]) +
        2 * (count st [19, 7] + count st [7, 4] + count st [8, 13] + count st [4, 17] + count st [0, 13] +
          count st [17, 4] + count st [14, 13] + count st [0, 19] + count st [4, 13] + count st [4, 3]))

/-- R173 (derived by the spec from R170 to R172): an occurrence counts in every list, the score is 0 exactly without a vowel and without TH, it is at most 52
for each residue, and a reversal may change it. -/
def Obligations.ScoreProperties : Prop :=
  (∀ st : List Residue, score st =
    10 * (commonWords.map (count st)).sum + (vowels.map (count st)).sum + 2 * (digrams.map (count st)).sum) ∧
  score [8, 13] = 13 ∧
  (∀ st : List Residue, score st = 0 ↔
    (∀ v ∈ [0, 4, 8, 14, 20], (v : Residue) ∉ st) ∧ ¬ ([19, 7] : List Residue) <:+: st) ∧
  (∀ st : List Residue, score st ≤ 52 * st.length ∧ (st.length ≤ 4096 → score st < 2 ^ 18)) ∧
  (∃ st : List Residue, score st ≠ score st.reverse)

/-! ## Search -/

/-- R194: containment of a non-empty pattern. -/
def Obligations.ContainsIsSubstring : Prop :=
  ∀ t p : List Residue, 1 ≤ p.length →
    (contains t p = true ↔ ∃ i, i + p.length ≤ t.length ∧ (t.drop i).take p.length = p) ∧
    (t.length < p.length → contains t p = false)

/-- R191: the checks of the two searches, in their order; on an error nothing is written. -/
def Obligations.SearchChecksComeInOrder : Prop :=
  ∀ s : State,
    (s.cfg.ibufSize < s.len.toNat ∨ s.len.toNat % 2 ≠ 0 →
      exec .search s = .next { s with errcode := .badLength, done := true, pending := none } ∧
      exec .searchkp s = .next { s with errcode := .badLength, done := true, pending := none }) ∧
    (s.len.toNat ≤ s.cfg.ibufSize → s.len.toNat % 2 = 0 → s.kpLen.toNat = 0 ∨ s.cfg.kpSize < s.kpLen.toNat →
      exec .searchkp s = .next { s with errcode := .badLength, done := true, pending := none }) ∧
    (s.len.toNat ≤ s.cfg.ibufSize → s.len.toNat % 2 = 0 → s.cfg.topnMax < s.topn.toNat →
      exec .search s = .next { s with errcode := .badOperand, done := true, pending := none } ∧
      (1 ≤ s.kpLen.toNat → s.kpLen.toNat ≤ s.cfg.kpSize →
        exec .searchkp s = .next { s with errcode := .badOperand, done := true, pending := none }))

/-- R200, R197: SEARCH. Its two checks; else the retained candidates are ranked, RTAB holds the first
min(TOPN, RETAINED) of them and zeros beyond, the counters are written, and nothing else is. ("MATCH stays 0" is
MATCH left as it was, which acceptance cleared: assumption log 15.) -/
def Obligations.SearchCompletesWithTheRankedList : Prop :=
  ∀ s : State, s.cfg.legal = true →
    (s.cfg.ibufSize < s.len.toNat ∨ s.len.toNat % 2 ≠ 0 →
      exec .search s = .next { s with errcode := .badLength, done := true, pending := none }) ∧
    (s.len.toNat ≤ s.cfg.ibufSize → s.len.toNat % 2 = 0 → s.cfg.topnMax < s.topn.toNat →
      exec .search s = .next { s with errcode := .badOperand, done := true, pending := none }) ∧
    (s.len.toNat ≤ s.cfg.ibufSize → s.len.toNat % 2 = 0 → s.topn.toNat ≤ s.cfg.topnMax → ∃ t ranked, exec .search s = .next t ∧
      t = { s with mem := t.mem, nresults := t.nresults, invCount := t.invCount, retained := t.retained,
                   errcode := .noError, done := true, pending := none } ∧
      List.Perm ranked (retainedBelow s.stream 456976) ∧
      ranked.Pairwise (fun x y => y.score < x.score ∨ (x.score = y.score ∧ x.idx < y.idx)) ∧
      t.retained.toNat = ranked.length ∧ t.invCount.toNat = invertibleBelow 456976 ∧
      t.nresults.toNat = min s.topn.toNat ranked.length ∧
      (∀ j x, j < t.nresults.toNat → ranked[j]? = some x →
        t.wordAt (rtabAddr j 0) = x.key.pack ∧ (t.wordAt (rtabAddr j 1)).toNat = x.score ∧
        (t.wordAt (rtabAddr j 2)).toNat = x.idx ∧ t.wordAt (rtabAddr j 3) = 0#32) ∧
      (∀ j k, t.nresults.toNat ≤ j → j < s.cfg.topnMax → k < 4 → t.wordAt (rtabAddr j k) = 0#32) ∧
      (∀ a, (a < rtabAddr 0 0 ∨ rtabAddr s.cfg.topnMax 0 ≤ a) → t.byteAt a = s.byteAt a))

/-- R196, first bullet (the spec derives it from R190 and R129): a SEARCH that succeeds counts all invertible keys, whatever the stream. -/
def Obligations.SearchCountsAllInvertibleKeys : Prop :=
  ∀ s t : State, exec .search s = .next t → t.errcode = .noError → t.invCount = 157248#32

/-- R198, R203: a SEARCHKP with a match returns the match with the lowest index: MATCH, one result with score word 0,
the plaintext in OBUF, and the counts up to the match. (RETAINED is stated for KP_SCORES_NONMATCH true, this spec's
hardware: U7 leaves it open beside a match for false, assumption log 11.) -/
def Obligations.SearchkpReturnsTheLowestMatch : Prop :=
  ∀ (s : State) (i : Nat), s.cfg.legal = true →
    s.len.toNat ≤ s.cfg.ibufSize → s.len.toNat % 2 = 0 → 1 ≤ s.kpLen.toNat → s.kpLen.toNat ≤ s.cfg.kpSize →
    s.topn.toNat ≤ s.cfg.topnMax →
    i < 456976 → matchesAt s.stream s.pattern i → (∀ j, j < i → ¬ matchesAt s.stream s.pattern j) →
    ∃ t k, (keyAt i).invert = some k ∧ exec .searchkp s = .next t ∧
      t = { s with mem := t.mem, nresults := 1#32, invCount := t.invCount, retained := t.retained, matched := true,
                   errcode := .noError, done := true, pending := none } ∧
      t.invCount.toNat = invertibleBelow (i + 1) ∧
      (s.cfg.kpScoresNonmatch = true → t.retained.toNat = (retainedBelow s.stream i).length) ∧
      t.wordAt (rtabAddr 0 0) = (keyAt i).pack ∧ t.wordAt (rtabAddr 0 1) = 0#32 ∧
      (t.wordAt (rtabAddr 0 2)).toNat = i ∧ t.wordAt (rtabAddr 0 3) = 0#32 ∧
      (∀ j w, 1 ≤ j → j < s.cfg.topnMax → w < 4 → t.wordAt (rtabAddr j w) = 0#32) ∧
      (∀ m x, (k.apply s.stream)[m]? = some x → t.byteAt (obufAddr m) = residueByte x) ∧
      (k.apply s.stream).length = s.len.toNat ∧
      (∀ a, (a < obufAddr 0 ∨ obufAddr s.len.toNat ≤ a) → (a < rtabAddr 0 0 ∨ rtabAddr s.cfg.topnMax 0 ≤ a) →
        t.byteAt a = s.byteAt a)

/-- R202: a SEARCHKP that finds no match does exactly what SEARCH does on the same stream and limit. -/
def Obligations.SearchkpWithoutMatchIsSearch : Prop :=
  ∀ s : State, s.cfg.kpScoresNonmatch = true → 1 ≤ s.kpLen.toNat → s.kpLen.toNat ≤ s.cfg.kpSize →
    (∀ i, i < 456976 → ¬ matchesAt s.stream s.pattern i) →
    exec .searchkp s = exec .search s

/-- U7, the reading the spec sets aside (log 11): with KP_SCORES_NONMATCH false, a SEARCHKP without a match retains
nothing, and still counts the invertible keys. -/
def Obligations.SearchkpWithoutMatchUnscored : Prop :=
  ∀ s : State, s.cfg.legal = true → s.cfg.kpScoresNonmatch = false →
    s.len.toNat ≤ s.cfg.ibufSize → s.len.toNat % 2 = 0 → 1 ≤ s.kpLen.toNat → s.kpLen.toNat ≤ s.cfg.kpSize →
    s.topn.toNat ≤ s.cfg.topnMax → (∀ i, i < 456976 → ¬ matchesAt s.stream s.pattern i) →
    ∃ t, exec .searchkp s = .next t ∧
      t = { s with mem := t.mem, nresults := 0#32, retained := 0#32, invCount := t.invCount,
                   errcode := .noError, done := true, pending := none } ∧
      t.invCount.toNat = invertibleBelow 456976 ∧
      (∀ j k, j < s.cfg.topnMax → k < 4 → t.wordAt (rtabAddr j k) = 0#32) ∧
      (∀ a, (a < rtabAddr 0 0 ∨ rtabAddr s.cfg.topnMax 0 ≤ a) → t.byteAt a = s.byteAt a)

/-- R204, R205: whatever the partition of the enumeration among lanes, and whatever order each lane scans its slice in,
the merged result is that of the sequential search, if the slices cover what it depends on: an index may be left out
only if its key is singular or a lane finds a match below it. `laneSearch` is the model's pure function of the
partition (assumption log 14), with the merge of R207, which the spec derives from R195. -/
def Obligations.LanesAgreeWithTheSequentialSearch : Prop :=
  ∀ (st : List Residue) (n : Nat) (p : Option (List Residue)) (scoring : Bool) (slices : List (List Nat)),
    slices.flatten.Nodup → (∀ j ∈ slices.flatten, j < 456976) →
    (∀ j, j < 456976 → j ∉ slices.flatten →
      (keyAt j).isInvertible = false ∨ ∃ i ∈ slices.flatten, i < j ∧ ∃ q, p = some q ∧ matchesAt st q i) →
    laneSearch st n p scoring slices = searchKeys st n p scoring

/-- R195: the ranking is the one list of the retained candidates in the order (score descending, index ascending),
and the table's entries are its first n. -/
def Obligations.RankingIsTheUniqueOrder : Prop :=
  ∀ (kept : List Candidate) (n : Nat), (kept.map Candidate.idx).Nodup →
    List.Perm (ranking kept) kept ∧
    (ranking kept).Pairwise (fun x y => y.score < x.score ∨ (x.score = y.score ∧ x.idx < y.idx)) ∧
    (∀ l : List Candidate, List.Perm l kept →
      l.Pairwise (fun x y => y.score < x.score ∨ (x.score = y.score ∧ x.idx < y.idx)) →
      l = ranking kept ∧ best n kept = l.take n)

/-! ## The bus port -/

/-- R61, R62: a transaction of another width, or a misaligned one, gets BusError and changes no state (the response
is the model's record). -/
def Obligations.BusErrorChangesNothing : Prop :=
  ∀ (s : State) (x : Transaction), x.size ≠ .bits32 ∨ x.off.toNat % 4 ≠ 0 →
    s.transact x = { s with resp := some .busError }

/-- R63: the address map of the window, row by row, with the outcome of each row, and the registers at R43's
offsets. That word W3 of an RTAB entry reads 0 in every idle state, also after power-on and after a cancelled search,
is the model's reading of R45 and 93 U2 beside R250, R252 and U3 (assumption log 24, DEDUCED). -/
def Obligations.AddressMap : Prop :=
  ∀ (s : State) (w : Word), s.cfg.legal = true →
    (∀ r ∈ [(0x000, Reg.id), (0x004, .cfg0), (0x008, .cfg1), (0x00C, .ctrl), (0x010, .status), (0x014, .cmd),
        (0x018, .key), (0x01C, .opa), (0x020, .opb), (0x024, .res0), (0x028, .res1), (0x02C, .res2), (0x030, .len),
        (0x034, .kpLen), (0x038, .topn), (0x03C, .invCount), (0x040, .retained), (0x044, .nresults)],
      targetAt s.cfg r.1 = some (.reg r.2) ∧ r.2.offset = r.1) ∧
    (∀ r : Reg, targetAt s.cfg r.offset = some (.reg r)) ∧
    (∀ k, 4 * k < 0x1000 → (∀ r : Reg, r.offset ≠ 4 * k) →
      s.transact (readTx (4 * k)) = { s with resp := some (.data 0#32) } ∧
      s.transact (writeTx (4 * k) w) = { s with resp := some .ok }) ∧
    (∀ k, 4 * k < s.cfg.ibufSize → targetAt s.cfg (0x1000 + 4 * k) = some (.ibuf (4 * k)) ∧
      targetAt s.cfg (0x2000 + 4 * k) = some (.obuf (4 * k))) ∧
    (∀ k, 4 * k < s.cfg.kpSize → targetAt s.cfg (0x3000 + 4 * k) = some (.kpbuf (4 * k))) ∧
    (∀ r ∈ hostBuffers s.cfg, ∀ k, 4 * k < r.2 → s.pending = none →
      s.transact (readTx (r.1 + 4 * k)) = { s with resp := some (.data (s.wordAt (r.1 + 4 * k))) } ∧
      s.transact (writeTx (r.1 + 4 * k) w) =
        { s with mem := s.mem.store (r.1 + 4 * k) (wordBytes w), resp := some .ok }) ∧
    (∀ k, 4 * k < 16 * s.cfg.topnMax → targetAt s.cfg (0x4000 + 4 * k) = some (.rtab (4 * k)) ∧
      s.transact (writeTx (0x4000 + 4 * k) w) = { s with resp := some .ok } ∧
      (s.pending = none →
        s.transact (readTx (0x4000 + 4 * k)) =
          { s with resp := some (.data (if k % 4 = 3 then 0#32 else s.wordAt (rtabAddr (k / 4) (k % 4)))) })) ∧
    (∀ off, off < 0x8000 → off % 4 = 0 →
      (0x1000 + s.cfg.ibufSize ≤ off ∧ off < 0x2000) ∨ (0x2000 + s.cfg.ibufSize ≤ off ∧ off < 0x3000) ∨
        (0x3000 + s.cfg.kpSize ≤ off ∧ off < 0x4000) ∨ (0x4000 + 16 * s.cfg.topnMax ≤ off ∧ off < 0x5000) ∨
        0x5000 ≤ off →
      s.transact (readTx off) = { s with resp := some .busError } ∧
      s.transact (writeTx off w) = { s with resp := some .busError })

/-- R64, R65: buffer words are little-endian; a host write stores its four bytes as written, changes no other byte,
and reads back. -/
def Obligations.BufferWordsAreLittleEndian : Prop :=
  ∀ (s : State) (r : Nat × Nat) (k : Nat) (w : Word), s.cfg.legal = true → s.pending = none →
    r ∈ hostBuffers s.cfg → 4 * k < r.2 →
    s.transact (readTx (r.1 + 4 * k)) =
      { s with resp := some (.data (s.byteAt (r.1 + 4 * k + 3) ++ s.byteAt (r.1 + 4 * k + 2) ++
          s.byteAt (r.1 + 4 * k + 1) ++ s.byteAt (r.1 + 4 * k))) } ∧
    ∃ t, s.transact (writeTx (r.1 + 4 * k) w) = t ∧
      t = { s with mem := t.mem, resp := some .ok } ∧
      t.byteAt (r.1 + 4 * k) = w.extractLsb' 0 8 ∧ t.byteAt (r.1 + 4 * k + 1) = w.extractLsb' 8 8 ∧
      t.byteAt (r.1 + 4 * k + 2) = w.extractLsb' 16 8 ∧ t.byteAt (r.1 + 4 * k + 3) = w.extractLsb' 24 8 ∧
      (∀ a, (a < r.1 + 4 * k ∨ r.1 + 4 * k + 4 ≤ a) → t.byteAt a = s.byteAt a) ∧
      (t.transact (readTx (r.1 + 4 * k))).resp = some (.data w)

/-- R33: a write of KEY stores each byte mod 26, and KEY always reads as four residues. -/
def Obligations.KeyWritesAreReducedMod26 : Prop :=
  (∀ (s : State) (w : Word), s.pending = none →
    ∃ k, s.transact (writeTx 0x018 w) = { s with key := k, resp := some .ok } ∧
      k.a.val = (w.extractLsb' 0 8).toNat % 26 ∧ k.b.val = (w.extractLsb' 8 8).toNat % 26 ∧
      k.c.val = (w.extractLsb' 16 8).toNat % 26 ∧ k.d.val = (w.extractLsb' 24 8).toNat % 26) ∧
  (∀ s : State, ∃ v, s.transact (readTx 0x018) = { s with resp := some (.data v) } ∧
    (v.extractLsb' 0 8).toNat = s.key.a.val ∧ (v.extractLsb' 8 8).toNat = s.key.b.val ∧
    (v.extractLsb' 16 8).toNat = s.key.c.val ∧ (v.extractLsb' 24 8).toNat = s.key.d.val) ∧
  State.reset.key.pack = 0#32

/-- R34, R35, R37, R38, R39: the 16-bit operand registers store the low half of a written word, and read it with
bits [31:16] zero, also while a command is pending. -/
def Obligations.OperandRegistersKeepTheLowHalf : Prop :=
  (∀ (s : State) (w : Word), s.pending = none →
    s.transact (writeTx 0x01C w) = { s with opa := w.extractLsb' 0 16, resp := some .ok } ∧
    s.transact (writeTx 0x020 w) = { s with opb := w.extractLsb' 0 16, resp := some .ok } ∧
    s.transact (writeTx 0x030 w) = { s with len := w.extractLsb' 0 16, resp := some .ok } ∧
    s.transact (writeTx 0x034 w) = { s with kpLen := w.extractLsb' 0 16, resp := some .ok } ∧
    s.transact (writeTx 0x038 w) = { s with topn := w.extractLsb' 0 16, resp := some .ok }) ∧
  (∀ s : State,
    s.transact (readTx 0x01C) = { s with resp := some (.data (s.opa.zeroExtend 32)) } ∧
    s.transact (readTx 0x020) = { s with resp := some (.data (s.opb.zeroExtend 32)) } ∧
    s.transact (readTx 0x030) = { s with resp := some (.data (s.len.zeroExtend 32)) } ∧
    s.transact (readTx 0x034) = { s with resp := some (.data (s.kpLen.zeroExtend 32)) } ∧
    s.transact (readTx 0x038) = { s with resp := some (.data (s.topn.zeroExtend 32)) }) ∧
  State.reset.opa = 0#16 ∧ State.reset.opb = 0#16 ∧ State.reset.len = 0#16 ∧ State.reset.kpLen = 0#16 ∧
  State.reset.topn = 0#16

/-- R25, R28, R220: the fields of STATUS as read, with the codes of ERRCODE, and a write to it changes DONE and WERR only, by writing 1. -/
def Obligations.StatusFieldsAndWrites : Prop :=
  (∀ s : State, ∃ v, s.transact (readTx 0x010) = { s with resp := some (.data v) } ∧
    v.getLsbD 0 = s.pending.isSome ∧ v.getLsbD 1 = s.done ∧ (v.getLsbD 2 = true ↔ s.errcode ≠ .noError) ∧
    v.getLsbD 3 = s.matched ∧ v.getLsbD 4 = s.werr ∧ v.extractLsb' 5 3 = 0#3 ∧
    (v.extractLsb' 8 4).toNat = (match s.errcode with
      | .noError => 0 | .illegalCmd => 1 | .badLength => 2 | .badOperand => 3 | .noInverse => 4
      | .notInvertible => 5) ∧
    v.extractLsb' 12 20 = 0#20) ∧
  (∀ (s : State) (w : Word),
    s.transact (writeTx 0x010 w) =
      { s with done := s.done && !w.getLsbD 1, werr := s.werr && !w.getLsbD 4, resp := some .ok })

/-- R24: CTRL. IE is written when SRST is 0; with SRST = 1 the write is a soft reset and IE ends at 0; bits [31:1]
read 0. -/
def Obligations.CtrlFieldsAndWrites : Prop :=
  (∀ s : State, ∃ v, s.transact (readTx 0x00C) = { s with resp := some (.data v) } ∧
    v.getLsbD 0 = s.ie ∧ v.extractLsb' 1 31 = 0#31) ∧
  (∀ (s : State) (w : Word), w.getLsbD 1 = false →
    s.transact (writeTx 0x00C w) = { s with ie := w.getLsbD 0, resp := some .ok }) ∧
  (∀ (s : State) (w : Word), w.getLsbD 1 = true →
    s.transact (writeTx 0x00C w) = s.softReset.respond .ok ∧ s.softReset.ie = false)

/-- R21, R22, R23: ID, CFG0 and CFG1 read as the constants of the configuration at all times, and ignore writes. -/
def Obligations.IdentificationRegistersAreConstant : Prop :=
  ∀ (s : State) (w : Word), s.cfg.legal = true →
    s.transact (readTx 0x000) = { s with resp := some (.data 0x48324D45#32) } ∧
    (∃ v, s.transact (readTx 0x004) = { s with resp := some (.data v) } ∧
      (v.extractLsb' 0 13).toNat = s.cfg.ibufSize ∧ v.extractLsb' 13 19 = 0#19) ∧
    (∃ v, s.transact (readTx 0x008) = { s with resp := some (.data v) } ∧
      (v.extractLsb' 0 8).toNat = s.cfg.kpSize ∧ (v.extractLsb' 8 8).toNat = s.cfg.topnMax ∧
      (v.extractLsb' 16 16).toNat = s.cfg.nlanes) ∧
    s.transact (writeTx 0x000 w) = { s with resp := some .ok } ∧
    s.transact (writeTx 0x004 w) = { s with resp := some .ok } ∧
    s.transact (writeTx 0x008 w) = { s with resp := some .ok }

/-- R67, R69: a host read changes nothing (the response, and the count of free values drawn, are the model's own),
and while no command is pending it returns the stored value: RES0 to RES2, INV_COUNT, RETAINED and NRESULTS at their
offsets (R36, R40 to R42). CMD reads as the last accepted word at all times (R32). -/
def Obligations.ReadsHaveNoSideEffect : Prop :=
  (∀ (s : State) (x : Transaction), x.op = .read →
    (∃ r f, s.transact x = { s with resp := r, fresh := f }) ∧
    (s.pending = none → (s.transact x).fresh = s.fresh ∧
      ∀ g, x.target s.cfg = some g → (s.transact x).resp = some (.data (s.targetWord g)))) ∧
  (∀ s : State, s.transact (readTx 0x014) = { s with resp := some (.data s.cmd) }) ∧
  (∀ s : State, s.pending = none →
    s.transact (readTx 0x024) = { s with resp := some (.data s.res0) } ∧
    s.transact (readTx 0x028) = { s with resp := some (.data s.res1) } ∧
    s.transact (readTx 0x02C) = { s with resp := some (.data s.res2) } ∧
    s.transact (readTx 0x03C) = { s with resp := some (.data s.invCount) } ∧
    s.transact (readTx 0x040) = { s with resp := some (.data s.retained) } ∧
    s.transact (readTx 0x044) = { s with resp := some (.data s.nresults) })

/-- R260: while a command is pending, writes to CMD, the operand registers and the buffers are dropped and set WERR;
writes to CTRL and STATUS take effect; writes to read-only registers and RTAB are ignored at all times. -/
def Obligations.WritesWhileBusyAreDropped : Prop :=
  ∀ (s : State) (w : Word), s.cfg.legal = true →
    (∀ v, s.pending = some v →
      (∀ off ∈ [0x014, 0x018, 0x01C, 0x020, 0x030, 0x034, 0x038],
        s.transact (writeTx off w) = { s with werr := true, resp := some .ok }) ∧
      (∀ r ∈ hostBuffers s.cfg, ∀ k, 4 * k < r.2 →
        s.transact (writeTx (r.1 + 4 * k) w) = { s with werr := true, resp := some .ok }) ∧
      (w.getLsbD 1 = false → s.transact (writeTx 0x00C w) = { s with ie := w.getLsbD 0, resp := some .ok }) ∧
      (w.getLsbD 1 = true → (s.transact (writeTx 0x00C w)).pending = none) ∧
      s.transact (writeTx 0x010 w) =
        { s with done := s.done && !w.getLsbD 1, werr := s.werr && !w.getLsbD 4, resp := some .ok }) ∧
    (∀ off ∈ [0x000, 0x004, 0x008, 0x024, 0x028, 0x02C, 0x03C, 0x040, 0x044],
      s.transact (writeTx off w) = { s with resp := some .ok }) ∧
    (∀ k, 0x048 ≤ 4 * k → 4 * k < 0x1000 → s.transact (writeTx (4 * k) w) = { s with resp := some .ok }) ∧
    (∀ k, 4 * k < 16 * s.cfg.topnMax → s.transact (writeTx (0x4000 + 4 * k) w) = { s with resp := some .ok })

/-- R262: while a command is pending, no read depends on the volatile outputs: two states that differ only in RES0 to
RES2, the counters, RTAB and OBUF[0 … LEN) give the same response to every read; a read of a volatile output
returns a word; and a word of IBUF, of KPBUF or of OBUF beyond LEN still reads as stored. (That a volatile read takes a
numbered free word is assumption log 3, and that this holds for W3 of RTAB too is log 24.) -/
def Obligations.ReadsWhileBusyRevealNoResult : Prop :=
  ∀ (s : State) (v r0 r1 r2 ic rt nr : Word) (m : Memory) (x : Transaction),
    s.cfg.legal = true → s.pending = some v → x.op = .read →
    (∀ a, (0x1000 ≤ a ∧ a < 0x2000) ∨ (0x3000 ≤ a ∧ a < 0x4000) ∨
        (0x2000 ≤ a ∧ a < 0x3000 ∧ s.len.toNat ≤ a - 0x2000) → m.read? a = s.mem.read? a) →
    (State.transact { s with res0 := r0, res1 := r1, res2 := r2, invCount := ic, retained := rt, nresults := nr,
                             mem := m } x).resp = (s.transact x).resp ∧
    (∀ k, 4 * k < s.cfg.ibufSize →
      (s.transact (readTx (0x1000 + 4 * k))).resp = some (.data (s.wordAt (ibufAddr (4 * k)))) ∧
      (s.len.toNat ≤ 4 * k →
        (s.transact (readTx (0x2000 + 4 * k))).resp = some (.data (s.wordAt (obufAddr (4 * k)))))) ∧
    (∀ k, 4 * k < s.cfg.kpSize →
      (s.transact (readTx (0x3000 + 4 * k))).resp = some (.data (s.wordAt (kpbufAddr (4 * k))))) ∧
    (∀ off ∈ [0x024, 0x028, 0x02C, 0x03C, 0x040, 0x044], ∃ d, (s.transact (readTx off)).resp = some (.data d)) ∧
    (∀ k, 4 * k < 16 * s.cfg.topnMax → ∃ d, (s.transact (readTx (0x4000 + 4 * k))).resp = some (.data d)) ∧
    (∀ k, 4 * k < s.cfg.ibufSize → 4 * k < s.len.toNat →
      ∃ d, (s.transact (readTx (0x2000 + 4 * k))).resp = some (.data d))

/-- R47: the interrupt line is IE ∧ DONE; a completion raises it exactly when IE = 1, and so does setting IE while
DONE = 1; acceptance, clearing DONE, clearing IE and both resets lower it. -/
def Obligations.IrqIsTheLevelOfIeAndDone : Prop :=
  (∀ s : State, s.irq = (s.ie && s.done)) ∧
  (∀ (i : Instr) (s t : State), exec i s = .next t → t.irq = s.ie) ∧
  (∀ (s : State) (w : Word), w.getLsbD 0 = true → w.getLsbD 1 = false → s.done = true →
    (s.transact (writeTx 0x00C w)).irq = true) ∧
  (∀ (s : State) (w : Word), s.pending = none → (s.transact (writeTx 0x014 w)).irq = false) ∧
  (∀ (s : State) (w : Word), w.getLsbD 1 = true → (s.transact (writeTx 0x010 w)).irq = false) ∧
  (∀ (s : State) (w : Word), w.getLsbD 0 = false ∨ w.getLsbD 1 = true → (s.transact (writeTx 0x00C w)).irq = false) ∧
  (∀ s : State, (s.driveRst true).irq = false)

/-! ## Reset -/

/-- R250: while `rst` is asserted and when it is released, every register has its reset value, nothing is pending,
`irq` is 0, and nothing is written in a buffer. -/
def Obligations.PowerOnResetClearsTheMachine : Prop :=
  ∀ (s t : State), t = s.driveRst true ∨ (s.rst = true ∧ t = s.driveRst false) →
    t.ie = false ∧ t.done = false ∧ t.matched = false ∧ t.werr = false ∧ t.errcode = .noError ∧ t.cmd = 0#32 ∧
    t.key.pack = 0#32 ∧ t.opa = 0#16 ∧ t.opb = 0#16 ∧ t.res0 = 0#32 ∧ t.res1 = 0#32 ∧ t.res2 = 0#32 ∧
    t.len = 0#16 ∧ t.kpLen = 0#16 ∧ t.topn = 0#16 ∧ t.invCount = 0#32 ∧ t.retained = 0#32 ∧ t.nresults = 0#32 ∧
    t.pending = none ∧ t.irq = false ∧ t.mem = [] ∧ t.cfg = s.cfg

/-- R252: a soft reset. Every register is reset and a pending command is cancelled; IBUF and KPBUF keep their bytes;
OBUF and RTAB keep theirs too, but for what the cancelled command could write. -/
def Obligations.SoftResetCancelsAndKeepsInputs : Prop :=
  ∀ (s t : State) (w : Word), w.getLsbD 1 = true → t = s.transact (writeTx 0x00C w) →
    (t.ie = false ∧ t.done = false ∧ t.matched = false ∧ t.werr = false ∧ t.errcode = .noError ∧ t.cmd = 0#32 ∧
      t.key.pack = 0#32 ∧ t.opa = 0#16 ∧ t.opb = 0#16 ∧ t.res0 = 0#32 ∧ t.res1 = 0#32 ∧ t.res2 = 0#32 ∧
      t.len = 0#16 ∧ t.kpLen = 0#16 ∧ t.topn = 0#16 ∧ t.invCount = 0#32 ∧ t.retained = 0#32 ∧ t.nresults = 0#32 ∧
      t.pending = none ∧ t.irq = false ∧ t.cfg = s.cfg ∧ t.events = s.events ∧ t.rst = s.rst) ∧
    (s.pending = none → ∀ a, t.byteAt a = s.byteAt a) ∧
    (∀ v a, s.pending = some v →
      ¬ ((v = 0x6#32 ∨ v = 0x7#32 ∨ v = 0xA#32) ∧ 0x2000 ≤ a ∧ a < 0x2000 + s.len.toNat ∧
          a < 0x2000 + s.cfg.ibufSize) →
      ¬ ((v = 0x9#32 ∨ v = 0xA#32) ∧ 0x4000 ≤ a ∧ a < 0x4000 + 16 * s.cfg.topnMax) →
      t.byteAt a = s.byteAt a)

/-- R43, R250 and vector V-R1, at R9's default parameters (assumption log 5): what a host reads from each register right after reset. -/
def Obligations.ResetValuesOfTheRegisterMap : Prop :=
  ∀ p ∈ ([(0x000, 0x48324D45#32), (0x004, 0x00000400#32), (0x008, 0x001A4040#32), (0x00C, 0#32), (0x010, 0#32),
      (0x014, 0#32), (0x018, 0#32), (0x01C, 0#32), (0x020, 0#32), (0x024, 0#32), (0x028, 0#32), (0x02C, 0#32),
      (0x030, 0#32), (0x034, 0#32), (0x038, 0#32), (0x03C, 0#32), (0x040, 0#32), (0x044, 0#32)] : List (Nat × Word)),
    (State.reset.transact (readTx p.1)).resp = some (.data p.2)

/-! ## The whole machine -/

/-- The model's invariant (Safety.lean) holds after reset. -/
def Obligations.ResetMeetsTheInvariant : Prop := State.reset.Inv

/-- The invariant is kept by every step from every state that meets it: the memory keeps its canonical form inside the
buffers (no byte of W3 of RTAB among them: R45), a pending command has clear flags (R100, R262), MATCH stands beside a
single result (R198), NRESULTS fits RTAB (R42), RETAINED ≤ INV_COUNT ≤ 26^4 (R196), and a machine in reset is idle (R250). -/
def Obligations.StepKeepsTheInvariant : Prop :=
  ∀ s t : State, s.Inv → step s = .next t → t.Inv

/-- R106, over the schedule of assumption log 1: every pending command completes: where the host respects `rst`, running through the listed events and one
step more, nothing is refused and nothing is left pending. -/
def Obligations.PendingCommandsComplete : Prop :=
  ∀ s : State, respectsReset s.rst s.events = true →
    ∃ t, Host.Core.run core (s.events.length + 1) s = .next t ∧ t.pending = none ∧ t.events = []

/-- R49, R33 to R42, R221, R9: only the host's writes and reset change an operand register, only a completion and reset change a result
register or counter, and nothing changes a parameter. -/
def Obligations.RegistersHaveOneWriter : Prop :=
  ∀ s t : State, step s = .next t →
    t.cfg = s.cfg ∧
    ((∀ x es, s.events ≠ .bus x :: es) → (∀ l es, s.events ≠ .rst l :: es) →
      t.key = s.key ∧ t.opa = s.opa ∧ t.opb = s.opb ∧ t.len = s.len ∧ t.kpLen = s.kpLen ∧ t.topn = s.topn) ∧
    (∀ x es, s.events = .bus x :: es → (∀ w, x.target s.cfg = some (.reg .ctrl) → x.op = .write w → w.getLsbD 1 = false) →
      t.res0 = s.res0 ∧ t.res1 = s.res1 ∧ t.res2 = s.res2 ∧ t.invCount = s.invCount ∧ t.retained = s.retained ∧
      t.nresults = s.nresults)

/-- R27, R29, R30: DONE is set only by a completion, MATCH only by a completion of SEARCHKP, and WERR only by a host
write made while a command is pending. -/
def Obligations.FlagsAreSetOnlyAsStated : Prop :=
  ∀ s t : State, step s = .next t →
    (s.done = false → t.done = true → (∃ w, s.pending = some w) ∧ t.pending = none) ∧
    (s.matched = false → t.matched = true → s.pending = some (encode .searchkp) ∧ t.pending = none ∧
      t.errcode = .noError) ∧
    (s.werr = false → t.werr = true → (∃ v, s.pending = some v) ∧
      ∃ x es w, s.events = .bus x :: es ∧ x.op = .write w)
end

