-- ==== Sys2Proof/Laws/State.lean ====
section
/-! SUPPORT. One lemma per field of State per named update, each true by rfl, so that no proof unfolds a record update. -/

namespace Sys2Proof.Laws

open Sys2Proof.Machine

variable (s : State)

/-! ### setRes0 -/

@[simp] theorem setRes0_cfg (w : Word) : (s.setRes0 w).cfg = s.cfg := rfl
@[simp] theorem setRes0_ie (w : Word) : (s.setRes0 w).ie = s.ie := rfl
@[simp] theorem setRes0_done (w : Word) : (s.setRes0 w).done = s.done := rfl
@[simp] theorem setRes0_matched (w : Word) : (s.setRes0 w).matched = s.matched := rfl
@[simp] theorem setRes0_werr (w : Word) : (s.setRes0 w).werr = s.werr := rfl
@[simp] theorem setRes0_errcode (w : Word) : (s.setRes0 w).errcode = s.errcode := rfl
@[simp] theorem setRes0_cmd (w : Word) : (s.setRes0 w).cmd = s.cmd := rfl
@[simp] theorem setRes0_key (w : Word) : (s.setRes0 w).key = s.key := rfl
@[simp] theorem setRes0_opa (w : Word) : (s.setRes0 w).opa = s.opa := rfl
@[simp] theorem setRes0_opb (w : Word) : (s.setRes0 w).opb = s.opb := rfl
@[simp] theorem setRes0_res0 (w : Word) : (s.setRes0 w).res0 = w := rfl
@[simp] theorem setRes0_res1 (w : Word) : (s.setRes0 w).res1 = s.res1 := rfl
@[simp] theorem setRes0_res2 (w : Word) : (s.setRes0 w).res2 = s.res2 := rfl
@[simp] theorem setRes0_len (w : Word) : (s.setRes0 w).len = s.len := rfl
@[simp] theorem setRes0_kpLen (w : Word) : (s.setRes0 w).kpLen = s.kpLen := rfl
@[simp] theorem setRes0_topn (w : Word) : (s.setRes0 w).topn = s.topn := rfl
@[simp] theorem setRes0_invCount (w : Word) : (s.setRes0 w).invCount = s.invCount := rfl
@[simp] theorem setRes0_retained (w : Word) : (s.setRes0 w).retained = s.retained := rfl
@[simp] theorem setRes0_nresults (w : Word) : (s.setRes0 w).nresults = s.nresults := rfl
@[simp] theorem setRes0_mem (w : Word) : (s.setRes0 w).mem = s.mem := rfl
@[simp] theorem setRes0_pending (w : Word) : (s.setRes0 w).pending = s.pending := rfl
@[simp] theorem setRes0_rst (w : Word) : (s.setRes0 w).rst = s.rst := rfl
@[simp] theorem setRes0_events (w : Word) : (s.setRes0 w).events = s.events := rfl
@[simp] theorem setRes0_resp (w : Word) : (s.setRes0 w).resp = s.resp := rfl
@[simp] theorem setRes0_epoch (w : Word) : (s.setRes0 w).epoch = s.epoch := rfl
@[simp] theorem setRes0_fresh (w : Word) : (s.setRes0 w).fresh = s.fresh := rfl

/-! ### setRes1 -/

@[simp] theorem setRes1_cfg (w : Word) : (s.setRes1 w).cfg = s.cfg := rfl
@[simp] theorem setRes1_ie (w : Word) : (s.setRes1 w).ie = s.ie := rfl
@[simp] theorem setRes1_done (w : Word) : (s.setRes1 w).done = s.done := rfl
@[simp] theorem setRes1_matched (w : Word) : (s.setRes1 w).matched = s.matched := rfl
@[simp] theorem setRes1_werr (w : Word) : (s.setRes1 w).werr = s.werr := rfl
@[simp] theorem setRes1_errcode (w : Word) : (s.setRes1 w).errcode = s.errcode := rfl
@[simp] theorem setRes1_cmd (w : Word) : (s.setRes1 w).cmd = s.cmd := rfl
@[simp] theorem setRes1_key (w : Word) : (s.setRes1 w).key = s.key := rfl
@[simp] theorem setRes1_opa (w : Word) : (s.setRes1 w).opa = s.opa := rfl
@[simp] theorem setRes1_opb (w : Word) : (s.setRes1 w).opb = s.opb := rfl
@[simp] theorem setRes1_res0 (w : Word) : (s.setRes1 w).res0 = s.res0 := rfl
@[simp] theorem setRes1_res1 (w : Word) : (s.setRes1 w).res1 = w := rfl
@[simp] theorem setRes1_res2 (w : Word) : (s.setRes1 w).res2 = s.res2 := rfl
@[simp] theorem setRes1_len (w : Word) : (s.setRes1 w).len = s.len := rfl
@[simp] theorem setRes1_kpLen (w : Word) : (s.setRes1 w).kpLen = s.kpLen := rfl
@[simp] theorem setRes1_topn (w : Word) : (s.setRes1 w).topn = s.topn := rfl
@[simp] theorem setRes1_invCount (w : Word) : (s.setRes1 w).invCount = s.invCount := rfl
@[simp] theorem setRes1_retained (w : Word) : (s.setRes1 w).retained = s.retained := rfl
@[simp] theorem setRes1_nresults (w : Word) : (s.setRes1 w).nresults = s.nresults := rfl
@[simp] theorem setRes1_mem (w : Word) : (s.setRes1 w).mem = s.mem := rfl
@[simp] theorem setRes1_pending (w : Word) : (s.setRes1 w).pending = s.pending := rfl
@[simp] theorem setRes1_rst (w : Word) : (s.setRes1 w).rst = s.rst := rfl
@[simp] theorem setRes1_events (w : Word) : (s.setRes1 w).events = s.events := rfl
@[simp] theorem setRes1_resp (w : Word) : (s.setRes1 w).resp = s.resp := rfl
@[simp] theorem setRes1_epoch (w : Word) : (s.setRes1 w).epoch = s.epoch := rfl
@[simp] theorem setRes1_fresh (w : Word) : (s.setRes1 w).fresh = s.fresh := rfl

/-! ### setRes2 -/

@[simp] theorem setRes2_cfg (w : Word) : (s.setRes2 w).cfg = s.cfg := rfl
@[simp] theorem setRes2_ie (w : Word) : (s.setRes2 w).ie = s.ie := rfl
@[simp] theorem setRes2_done (w : Word) : (s.setRes2 w).done = s.done := rfl
@[simp] theorem setRes2_matched (w : Word) : (s.setRes2 w).matched = s.matched := rfl
@[simp] theorem setRes2_werr (w : Word) : (s.setRes2 w).werr = s.werr := rfl
@[simp] theorem setRes2_errcode (w : Word) : (s.setRes2 w).errcode = s.errcode := rfl
@[simp] theorem setRes2_cmd (w : Word) : (s.setRes2 w).cmd = s.cmd := rfl
@[simp] theorem setRes2_key (w : Word) : (s.setRes2 w).key = s.key := rfl
@[simp] theorem setRes2_opa (w : Word) : (s.setRes2 w).opa = s.opa := rfl
@[simp] theorem setRes2_opb (w : Word) : (s.setRes2 w).opb = s.opb := rfl
@[simp] theorem setRes2_res0 (w : Word) : (s.setRes2 w).res0 = s.res0 := rfl
@[simp] theorem setRes2_res1 (w : Word) : (s.setRes2 w).res1 = s.res1 := rfl
@[simp] theorem setRes2_res2 (w : Word) : (s.setRes2 w).res2 = w := rfl
@[simp] theorem setRes2_len (w : Word) : (s.setRes2 w).len = s.len := rfl
@[simp] theorem setRes2_kpLen (w : Word) : (s.setRes2 w).kpLen = s.kpLen := rfl
@[simp] theorem setRes2_topn (w : Word) : (s.setRes2 w).topn = s.topn := rfl
@[simp] theorem setRes2_invCount (w : Word) : (s.setRes2 w).invCount = s.invCount := rfl
@[simp] theorem setRes2_retained (w : Word) : (s.setRes2 w).retained = s.retained := rfl
@[simp] theorem setRes2_nresults (w : Word) : (s.setRes2 w).nresults = s.nresults := rfl
@[simp] theorem setRes2_mem (w : Word) : (s.setRes2 w).mem = s.mem := rfl
@[simp] theorem setRes2_pending (w : Word) : (s.setRes2 w).pending = s.pending := rfl
@[simp] theorem setRes2_rst (w : Word) : (s.setRes2 w).rst = s.rst := rfl
@[simp] theorem setRes2_events (w : Word) : (s.setRes2 w).events = s.events := rfl
@[simp] theorem setRes2_resp (w : Word) : (s.setRes2 w).resp = s.resp := rfl
@[simp] theorem setRes2_epoch (w : Word) : (s.setRes2 w).epoch = s.epoch := rfl
@[simp] theorem setRes2_fresh (w : Word) : (s.setRes2 w).fresh = s.fresh := rfl

/-! ### setCounters -/

@[simp] theorem setCounters_cfg (n i r : Word) : (s.setCounters n i r).cfg = s.cfg := rfl
@[simp] theorem setCounters_ie (n i r : Word) : (s.setCounters n i r).ie = s.ie := rfl
@[simp] theorem setCounters_done (n i r : Word) : (s.setCounters n i r).done = s.done := rfl
@[simp] theorem setCounters_matched (n i r : Word) : (s.setCounters n i r).matched = s.matched := rfl
@[simp] theorem setCounters_werr (n i r : Word) : (s.setCounters n i r).werr = s.werr := rfl
@[simp] theorem setCounters_errcode (n i r : Word) : (s.setCounters n i r).errcode = s.errcode := rfl
@[simp] theorem setCounters_cmd (n i r : Word) : (s.setCounters n i r).cmd = s.cmd := rfl
@[simp] theorem setCounters_key (n i r : Word) : (s.setCounters n i r).key = s.key := rfl
@[simp] theorem setCounters_opa (n i r : Word) : (s.setCounters n i r).opa = s.opa := rfl
@[simp] theorem setCounters_opb (n i r : Word) : (s.setCounters n i r).opb = s.opb := rfl
@[simp] theorem setCounters_res0 (n i r : Word) : (s.setCounters n i r).res0 = s.res0 := rfl
@[simp] theorem setCounters_res1 (n i r : Word) : (s.setCounters n i r).res1 = s.res1 := rfl
@[simp] theorem setCounters_res2 (n i r : Word) : (s.setCounters n i r).res2 = s.res2 := rfl
@[simp] theorem setCounters_len (n i r : Word) : (s.setCounters n i r).len = s.len := rfl
@[simp] theorem setCounters_kpLen (n i r : Word) : (s.setCounters n i r).kpLen = s.kpLen := rfl
@[simp] theorem setCounters_topn (n i r : Word) : (s.setCounters n i r).topn = s.topn := rfl
@[simp] theorem setCounters_invCount (n i r : Word) : (s.setCounters n i r).invCount = i := rfl
@[simp] theorem setCounters_retained (n i r : Word) : (s.setCounters n i r).retained = r := rfl
@[simp] theorem setCounters_nresults (n i r : Word) : (s.setCounters n i r).nresults = n := rfl
@[simp] theorem setCounters_mem (n i r : Word) : (s.setCounters n i r).mem = s.mem := rfl
@[simp] theorem setCounters_pending (n i r : Word) : (s.setCounters n i r).pending = s.pending := rfl
@[simp] theorem setCounters_rst (n i r : Word) : (s.setCounters n i r).rst = s.rst := rfl
@[simp] theorem setCounters_events (n i r : Word) : (s.setCounters n i r).events = s.events := rfl
@[simp] theorem setCounters_resp (n i r : Word) : (s.setCounters n i r).resp = s.resp := rfl
@[simp] theorem setCounters_epoch (n i r : Word) : (s.setCounters n i r).epoch = s.epoch := rfl
@[simp] theorem setCounters_fresh (n i r : Word) : (s.setCounters n i r).fresh = s.fresh := rfl

/-! ### setMatched -/

@[simp] theorem setMatched_cfg : (s.setMatched).cfg = s.cfg := rfl
@[simp] theorem setMatched_ie : (s.setMatched).ie = s.ie := rfl
@[simp] theorem setMatched_done : (s.setMatched).done = s.done := rfl
@[simp] theorem setMatched_matched : (s.setMatched).matched = true := rfl
@[simp] theorem setMatched_werr : (s.setMatched).werr = s.werr := rfl
@[simp] theorem setMatched_errcode : (s.setMatched).errcode = s.errcode := rfl
@[simp] theorem setMatched_cmd : (s.setMatched).cmd = s.cmd := rfl
@[simp] theorem setMatched_key : (s.setMatched).key = s.key := rfl
@[simp] theorem setMatched_opa : (s.setMatched).opa = s.opa := rfl
@[simp] theorem setMatched_opb : (s.setMatched).opb = s.opb := rfl
@[simp] theorem setMatched_res0 : (s.setMatched).res0 = s.res0 := rfl
@[simp] theorem setMatched_res1 : (s.setMatched).res1 = s.res1 := rfl
@[simp] theorem setMatched_res2 : (s.setMatched).res2 = s.res2 := rfl
@[simp] theorem setMatched_len : (s.setMatched).len = s.len := rfl
@[simp] theorem setMatched_kpLen : (s.setMatched).kpLen = s.kpLen := rfl
@[simp] theorem setMatched_topn : (s.setMatched).topn = s.topn := rfl
@[simp] theorem setMatched_invCount : (s.setMatched).invCount = s.invCount := rfl
@[simp] theorem setMatched_retained : (s.setMatched).retained = s.retained := rfl
@[simp] theorem setMatched_nresults : (s.setMatched).nresults = s.nresults := rfl
@[simp] theorem setMatched_mem : (s.setMatched).mem = s.mem := rfl
@[simp] theorem setMatched_pending : (s.setMatched).pending = s.pending := rfl
@[simp] theorem setMatched_rst : (s.setMatched).rst = s.rst := rfl
@[simp] theorem setMatched_events : (s.setMatched).events = s.events := rfl
@[simp] theorem setMatched_resp : (s.setMatched).resp = s.resp := rfl
@[simp] theorem setMatched_epoch : (s.setMatched).epoch = s.epoch := rfl
@[simp] theorem setMatched_fresh : (s.setMatched).fresh = s.fresh := rfl

/-! ### storeBytes -/

@[simp] theorem storeBytes_cfg (a : Nat) (bs : List Byte) : (s.storeBytes a bs).cfg = s.cfg := rfl
@[simp] theorem storeBytes_ie (a : Nat) (bs : List Byte) : (s.storeBytes a bs).ie = s.ie := rfl
@[simp] theorem storeBytes_done (a : Nat) (bs : List Byte) : (s.storeBytes a bs).done = s.done := rfl
@[simp] theorem storeBytes_matched (a : Nat) (bs : List Byte) : (s.storeBytes a bs).matched = s.matched := rfl
@[simp] theorem storeBytes_werr (a : Nat) (bs : List Byte) : (s.storeBytes a bs).werr = s.werr := rfl
@[simp] theorem storeBytes_errcode (a : Nat) (bs : List Byte) : (s.storeBytes a bs).errcode = s.errcode := rfl
@[simp] theorem storeBytes_cmd (a : Nat) (bs : List Byte) : (s.storeBytes a bs).cmd = s.cmd := rfl
@[simp] theorem storeBytes_key (a : Nat) (bs : List Byte) : (s.storeBytes a bs).key = s.key := rfl
@[simp] theorem storeBytes_opa (a : Nat) (bs : List Byte) : (s.storeBytes a bs).opa = s.opa := rfl
@[simp] theorem storeBytes_opb (a : Nat) (bs : List Byte) : (s.storeBytes a bs).opb = s.opb := rfl
@[simp] theorem storeBytes_res0 (a : Nat) (bs : List Byte) : (s.storeBytes a bs).res0 = s.res0 := rfl
@[simp] theorem storeBytes_res1 (a : Nat) (bs : List Byte) : (s.storeBytes a bs).res1 = s.res1 := rfl
@[simp] theorem storeBytes_res2 (a : Nat) (bs : List Byte) : (s.storeBytes a bs).res2 = s.res2 := rfl
@[simp] theorem storeBytes_len (a : Nat) (bs : List Byte) : (s.storeBytes a bs).len = s.len := rfl
@[simp] theorem storeBytes_kpLen (a : Nat) (bs : List Byte) : (s.storeBytes a bs).kpLen = s.kpLen := rfl
@[simp] theorem storeBytes_topn (a : Nat) (bs : List Byte) : (s.storeBytes a bs).topn = s.topn := rfl
@[simp] theorem storeBytes_invCount (a : Nat) (bs : List Byte) : (s.storeBytes a bs).invCount = s.invCount := rfl
@[simp] theorem storeBytes_retained (a : Nat) (bs : List Byte) : (s.storeBytes a bs).retained = s.retained := rfl
@[simp] theorem storeBytes_nresults (a : Nat) (bs : List Byte) : (s.storeBytes a bs).nresults = s.nresults := rfl
@[simp] theorem storeBytes_mem (a : Nat) (bs : List Byte) : (s.storeBytes a bs).mem = s.mem.store a bs := rfl
@[simp] theorem storeBytes_pending (a : Nat) (bs : List Byte) : (s.storeBytes a bs).pending = s.pending := rfl
@[simp] theorem storeBytes_rst (a : Nat) (bs : List Byte) : (s.storeBytes a bs).rst = s.rst := rfl
@[simp] theorem storeBytes_events (a : Nat) (bs : List Byte) : (s.storeBytes a bs).events = s.events := rfl
@[simp] theorem storeBytes_resp (a : Nat) (bs : List Byte) : (s.storeBytes a bs).resp = s.resp := rfl
@[simp] theorem storeBytes_epoch (a : Nat) (bs : List Byte) : (s.storeBytes a bs).epoch = s.epoch := rfl
@[simp] theorem storeBytes_fresh (a : Nat) (bs : List Byte) : (s.storeBytes a bs).fresh = s.fresh := rfl

/-! ### storeObuf -/

@[simp] theorem storeObuf_cfg (t : List Residue) : (s.storeObuf t).cfg = s.cfg := rfl
@[simp] theorem storeObuf_ie (t : List Residue) : (s.storeObuf t).ie = s.ie := rfl
@[simp] theorem storeObuf_done (t : List Residue) : (s.storeObuf t).done = s.done := rfl
@[simp] theorem storeObuf_matched (t : List Residue) : (s.storeObuf t).matched = s.matched := rfl
@[simp] theorem storeObuf_werr (t : List Residue) : (s.storeObuf t).werr = s.werr := rfl
@[simp] theorem storeObuf_errcode (t : List Residue) : (s.storeObuf t).errcode = s.errcode := rfl
@[simp] theorem storeObuf_cmd (t : List Residue) : (s.storeObuf t).cmd = s.cmd := rfl
@[simp] theorem storeObuf_key (t : List Residue) : (s.storeObuf t).key = s.key := rfl
@[simp] theorem storeObuf_opa (t : List Residue) : (s.storeObuf t).opa = s.opa := rfl
@[simp] theorem storeObuf_opb (t : List Residue) : (s.storeObuf t).opb = s.opb := rfl
@[simp] theorem storeObuf_res0 (t : List Residue) : (s.storeObuf t).res0 = s.res0 := rfl
@[simp] theorem storeObuf_res1 (t : List Residue) : (s.storeObuf t).res1 = s.res1 := rfl
@[simp] theorem storeObuf_res2 (t : List Residue) : (s.storeObuf t).res2 = s.res2 := rfl
@[simp] theorem storeObuf_len (t : List Residue) : (s.storeObuf t).len = s.len := rfl
@[simp] theorem storeObuf_kpLen (t : List Residue) : (s.storeObuf t).kpLen = s.kpLen := rfl
@[simp] theorem storeObuf_topn (t : List Residue) : (s.storeObuf t).topn = s.topn := rfl
@[simp] theorem storeObuf_invCount (t : List Residue) : (s.storeObuf t).invCount = s.invCount := rfl
@[simp] theorem storeObuf_retained (t : List Residue) : (s.storeObuf t).retained = s.retained := rfl
@[simp] theorem storeObuf_nresults (t : List Residue) : (s.storeObuf t).nresults = s.nresults := rfl
@[simp] theorem storeObuf_mem (t : List Residue) : (s.storeObuf t).mem = s.mem.store (obufAddr 0) (t.map residueByte) := rfl
@[simp] theorem storeObuf_pending (t : List Residue) : (s.storeObuf t).pending = s.pending := rfl
@[simp] theorem storeObuf_rst (t : List Residue) : (s.storeObuf t).rst = s.rst := rfl
@[simp] theorem storeObuf_events (t : List Residue) : (s.storeObuf t).events = s.events := rfl
@[simp] theorem storeObuf_resp (t : List Residue) : (s.storeObuf t).resp = s.resp := rfl
@[simp] theorem storeObuf_epoch (t : List Residue) : (s.storeObuf t).epoch = s.epoch := rfl
@[simp] theorem storeObuf_fresh (t : List Residue) : (s.storeObuf t).fresh = s.fresh := rfl

/-! ### storeRtab -/

@[simp] theorem storeRtab_cfg (es : List Candidate) : (s.storeRtab es).cfg = s.cfg := rfl
@[simp] theorem storeRtab_ie (es : List Candidate) : (s.storeRtab es).ie = s.ie := rfl
@[simp] theorem storeRtab_done (es : List Candidate) : (s.storeRtab es).done = s.done := rfl
@[simp] theorem storeRtab_matched (es : List Candidate) : (s.storeRtab es).matched = s.matched := rfl
@[simp] theorem storeRtab_werr (es : List Candidate) : (s.storeRtab es).werr = s.werr := rfl
@[simp] theorem storeRtab_errcode (es : List Candidate) : (s.storeRtab es).errcode = s.errcode := rfl
@[simp] theorem storeRtab_cmd (es : List Candidate) : (s.storeRtab es).cmd = s.cmd := rfl
@[simp] theorem storeRtab_key (es : List Candidate) : (s.storeRtab es).key = s.key := rfl
@[simp] theorem storeRtab_opa (es : List Candidate) : (s.storeRtab es).opa = s.opa := rfl
@[simp] theorem storeRtab_opb (es : List Candidate) : (s.storeRtab es).opb = s.opb := rfl
@[simp] theorem storeRtab_res0 (es : List Candidate) : (s.storeRtab es).res0 = s.res0 := rfl
@[simp] theorem storeRtab_res1 (es : List Candidate) : (s.storeRtab es).res1 = s.res1 := rfl
@[simp] theorem storeRtab_res2 (es : List Candidate) : (s.storeRtab es).res2 = s.res2 := rfl
@[simp] theorem storeRtab_len (es : List Candidate) : (s.storeRtab es).len = s.len := rfl
@[simp] theorem storeRtab_kpLen (es : List Candidate) : (s.storeRtab es).kpLen = s.kpLen := rfl
@[simp] theorem storeRtab_topn (es : List Candidate) : (s.storeRtab es).topn = s.topn := rfl
@[simp] theorem storeRtab_invCount (es : List Candidate) : (s.storeRtab es).invCount = s.invCount := rfl
@[simp] theorem storeRtab_retained (es : List Candidate) : (s.storeRtab es).retained = s.retained := rfl
@[simp] theorem storeRtab_nresults (es : List Candidate) : (s.storeRtab es).nresults = s.nresults := rfl
@[simp] theorem storeRtab_mem (es : List Candidate) : (s.storeRtab es).mem = s.mem.store (rtabAddr 0 0) (rtabImage s.cfg.topnMax es) := rfl
@[simp] theorem storeRtab_pending (es : List Candidate) : (s.storeRtab es).pending = s.pending := rfl
@[simp] theorem storeRtab_rst (es : List Candidate) : (s.storeRtab es).rst = s.rst := rfl
@[simp] theorem storeRtab_events (es : List Candidate) : (s.storeRtab es).events = s.events := rfl
@[simp] theorem storeRtab_resp (es : List Candidate) : (s.storeRtab es).resp = s.resp := rfl
@[simp] theorem storeRtab_epoch (es : List Candidate) : (s.storeRtab es).epoch = s.epoch := rfl
@[simp] theorem storeRtab_fresh (es : List Candidate) : (s.storeRtab es).fresh = s.fresh := rfl

/-! ### accept -/

@[simp] theorem accept_cfg (w : Word) : (s.accept w).cfg = s.cfg := rfl
@[simp] theorem accept_ie (w : Word) : (s.accept w).ie = s.ie := rfl
@[simp] theorem accept_done (w : Word) : (s.accept w).done = false := rfl
@[simp] theorem accept_matched (w : Word) : (s.accept w).matched = false := rfl
@[simp] theorem accept_werr (w : Word) : (s.accept w).werr = s.werr := rfl
@[simp] theorem accept_errcode (w : Word) : (s.accept w).errcode = .noError := rfl
@[simp] theorem accept_cmd (w : Word) : (s.accept w).cmd = w := rfl
@[simp] theorem accept_key (w : Word) : (s.accept w).key = s.key := rfl
@[simp] theorem accept_opa (w : Word) : (s.accept w).opa = s.opa := rfl
@[simp] theorem accept_opb (w : Word) : (s.accept w).opb = s.opb := rfl
@[simp] theorem accept_res0 (w : Word) : (s.accept w).res0 = s.res0 := rfl
@[simp] theorem accept_res1 (w : Word) : (s.accept w).res1 = s.res1 := rfl
@[simp] theorem accept_res2 (w : Word) : (s.accept w).res2 = s.res2 := rfl
@[simp] theorem accept_len (w : Word) : (s.accept w).len = s.len := rfl
@[simp] theorem accept_kpLen (w : Word) : (s.accept w).kpLen = s.kpLen := rfl
@[simp] theorem accept_topn (w : Word) : (s.accept w).topn = s.topn := rfl
@[simp] theorem accept_invCount (w : Word) : (s.accept w).invCount = s.invCount := rfl
@[simp] theorem accept_retained (w : Word) : (s.accept w).retained = s.retained := rfl
@[simp] theorem accept_nresults (w : Word) : (s.accept w).nresults = s.nresults := rfl
@[simp] theorem accept_mem (w : Word) : (s.accept w).mem = s.mem := rfl
@[simp] theorem accept_pending (w : Word) : (s.accept w).pending = some w := rfl
@[simp] theorem accept_rst (w : Word) : (s.accept w).rst = s.rst := rfl
@[simp] theorem accept_events (w : Word) : (s.accept w).events = s.events := rfl
@[simp] theorem accept_resp (w : Word) : (s.accept w).resp = s.resp := rfl
@[simp] theorem accept_epoch (w : Word) : (s.accept w).epoch = s.epoch := rfl
@[simp] theorem accept_fresh (w : Word) : (s.accept w).fresh = s.fresh := rfl

/-! ### finish -/

@[simp] theorem finish_cfg (c : ErrCode) : (s.finish c).cfg = s.cfg := rfl
@[simp] theorem finish_ie (c : ErrCode) : (s.finish c).ie = s.ie := rfl
@[simp] theorem finish_done (c : ErrCode) : (s.finish c).done = true := rfl
@[simp] theorem finish_matched (c : ErrCode) : (s.finish c).matched = s.matched := rfl
@[simp] theorem finish_werr (c : ErrCode) : (s.finish c).werr = s.werr := rfl
@[simp] theorem finish_errcode (c : ErrCode) : (s.finish c).errcode = c := rfl
@[simp] theorem finish_cmd (c : ErrCode) : (s.finish c).cmd = s.cmd := rfl
@[simp] theorem finish_key (c : ErrCode) : (s.finish c).key = s.key := rfl
@[simp] theorem finish_opa (c : ErrCode) : (s.finish c).opa = s.opa := rfl
@[simp] theorem finish_opb (c : ErrCode) : (s.finish c).opb = s.opb := rfl
@[simp] theorem finish_res0 (c : ErrCode) : (s.finish c).res0 = s.res0 := rfl
@[simp] theorem finish_res1 (c : ErrCode) : (s.finish c).res1 = s.res1 := rfl
@[simp] theorem finish_res2 (c : ErrCode) : (s.finish c).res2 = s.res2 := rfl
@[simp] theorem finish_len (c : ErrCode) : (s.finish c).len = s.len := rfl
@[simp] theorem finish_kpLen (c : ErrCode) : (s.finish c).kpLen = s.kpLen := rfl
@[simp] theorem finish_topn (c : ErrCode) : (s.finish c).topn = s.topn := rfl
@[simp] theorem finish_invCount (c : ErrCode) : (s.finish c).invCount = s.invCount := rfl
@[simp] theorem finish_retained (c : ErrCode) : (s.finish c).retained = s.retained := rfl
@[simp] theorem finish_nresults (c : ErrCode) : (s.finish c).nresults = s.nresults := rfl
@[simp] theorem finish_mem (c : ErrCode) : (s.finish c).mem = s.mem := rfl
@[simp] theorem finish_pending (c : ErrCode) : (s.finish c).pending = none := rfl
@[simp] theorem finish_rst (c : ErrCode) : (s.finish c).rst = s.rst := rfl
@[simp] theorem finish_events (c : ErrCode) : (s.finish c).events = s.events := rfl
@[simp] theorem finish_resp (c : ErrCode) : (s.finish c).resp = s.resp := rfl
@[simp] theorem finish_epoch (c : ErrCode) : (s.finish c).epoch = s.epoch := rfl
@[simp] theorem finish_fresh (c : ErrCode) : (s.finish c).fresh = s.fresh := rfl

/-! ### respond -/

@[simp] theorem respond_cfg (r : Response) : (s.respond r).cfg = s.cfg := rfl
@[simp] theorem respond_ie (r : Response) : (s.respond r).ie = s.ie := rfl
@[simp] theorem respond_done (r : Response) : (s.respond r).done = s.done := rfl
@[simp] theorem respond_matched (r : Response) : (s.respond r).matched = s.matched := rfl
@[simp] theorem respond_werr (r : Response) : (s.respond r).werr = s.werr := rfl
@[simp] theorem respond_errcode (r : Response) : (s.respond r).errcode = s.errcode := rfl
@[simp] theorem respond_cmd (r : Response) : (s.respond r).cmd = s.cmd := rfl
@[simp] theorem respond_key (r : Response) : (s.respond r).key = s.key := rfl
@[simp] theorem respond_opa (r : Response) : (s.respond r).opa = s.opa := rfl
@[simp] theorem respond_opb (r : Response) : (s.respond r).opb = s.opb := rfl
@[simp] theorem respond_res0 (r : Response) : (s.respond r).res0 = s.res0 := rfl
@[simp] theorem respond_res1 (r : Response) : (s.respond r).res1 = s.res1 := rfl
@[simp] theorem respond_res2 (r : Response) : (s.respond r).res2 = s.res2 := rfl
@[simp] theorem respond_len (r : Response) : (s.respond r).len = s.len := rfl
@[simp] theorem respond_kpLen (r : Response) : (s.respond r).kpLen = s.kpLen := rfl
@[simp] theorem respond_topn (r : Response) : (s.respond r).topn = s.topn := rfl
@[simp] theorem respond_invCount (r : Response) : (s.respond r).invCount = s.invCount := rfl
@[simp] theorem respond_retained (r : Response) : (s.respond r).retained = s.retained := rfl
@[simp] theorem respond_nresults (r : Response) : (s.respond r).nresults = s.nresults := rfl
@[simp] theorem respond_mem (r : Response) : (s.respond r).mem = s.mem := rfl
@[simp] theorem respond_pending (r : Response) : (s.respond r).pending = s.pending := rfl
@[simp] theorem respond_rst (r : Response) : (s.respond r).rst = s.rst := rfl
@[simp] theorem respond_events (r : Response) : (s.respond r).events = s.events := rfl
@[simp] theorem respond_resp (r : Response) : (s.respond r).resp = some r := rfl
@[simp] theorem respond_epoch (r : Response) : (s.respond r).epoch = s.epoch := rfl
@[simp] theorem respond_fresh (r : Response) : (s.respond r).fresh = s.fresh := rfl

/-! ### writeStatus -/

@[simp] theorem writeStatus_cfg (w : Word) : (s.writeStatus w).cfg = s.cfg := rfl
@[simp] theorem writeStatus_ie (w : Word) : (s.writeStatus w).ie = s.ie := rfl
@[simp] theorem writeStatus_done (w : Word) : (s.writeStatus w).done = (s.done && !w.getLsbD 1) := rfl
@[simp] theorem writeStatus_matched (w : Word) : (s.writeStatus w).matched = s.matched := rfl
@[simp] theorem writeStatus_werr (w : Word) : (s.writeStatus w).werr = (s.werr && !w.getLsbD 4) := rfl
@[simp] theorem writeStatus_errcode (w : Word) : (s.writeStatus w).errcode = s.errcode := rfl
@[simp] theorem writeStatus_cmd (w : Word) : (s.writeStatus w).cmd = s.cmd := rfl
@[simp] theorem writeStatus_key (w : Word) : (s.writeStatus w).key = s.key := rfl
@[simp] theorem writeStatus_opa (w : Word) : (s.writeStatus w).opa = s.opa := rfl
@[simp] theorem writeStatus_opb (w : Word) : (s.writeStatus w).opb = s.opb := rfl
@[simp] theorem writeStatus_res0 (w : Word) : (s.writeStatus w).res0 = s.res0 := rfl
@[simp] theorem writeStatus_res1 (w : Word) : (s.writeStatus w).res1 = s.res1 := rfl
@[simp] theorem writeStatus_res2 (w : Word) : (s.writeStatus w).res2 = s.res2 := rfl
@[simp] theorem writeStatus_len (w : Word) : (s.writeStatus w).len = s.len := rfl
@[simp] theorem writeStatus_kpLen (w : Word) : (s.writeStatus w).kpLen = s.kpLen := rfl
@[simp] theorem writeStatus_topn (w : Word) : (s.writeStatus w).topn = s.topn := rfl
@[simp] theorem writeStatus_invCount (w : Word) : (s.writeStatus w).invCount = s.invCount := rfl
@[simp] theorem writeStatus_retained (w : Word) : (s.writeStatus w).retained = s.retained := rfl
@[simp] theorem writeStatus_nresults (w : Word) : (s.writeStatus w).nresults = s.nresults := rfl
@[simp] theorem writeStatus_mem (w : Word) : (s.writeStatus w).mem = s.mem := rfl
@[simp] theorem writeStatus_pending (w : Word) : (s.writeStatus w).pending = s.pending := rfl
@[simp] theorem writeStatus_rst (w : Word) : (s.writeStatus w).rst = s.rst := rfl
@[simp] theorem writeStatus_events (w : Word) : (s.writeStatus w).events = s.events := rfl
@[simp] theorem writeStatus_resp (w : Word) : (s.writeStatus w).resp = s.resp := rfl
@[simp] theorem writeStatus_epoch (w : Word) : (s.writeStatus w).epoch = s.epoch := rfl
@[simp] theorem writeStatus_fresh (w : Word) : (s.writeStatus w).fresh = s.fresh := rfl

/-! ### clearRegisters -/

@[simp] theorem clearRegisters_cfg : (s.clearRegisters).cfg = s.cfg := rfl
@[simp] theorem clearRegisters_ie : (s.clearRegisters).ie = false := rfl
@[simp] theorem clearRegisters_done : (s.clearRegisters).done = false := rfl
@[simp] theorem clearRegisters_matched : (s.clearRegisters).matched = false := rfl
@[simp] theorem clearRegisters_werr : (s.clearRegisters).werr = false := rfl
@[simp] theorem clearRegisters_errcode : (s.clearRegisters).errcode = .noError := rfl
@[simp] theorem clearRegisters_cmd : (s.clearRegisters).cmd = 0#32 := rfl
@[simp] theorem clearRegisters_key : (s.clearRegisters).key = ⟨0, 0, 0, 0⟩ := rfl
@[simp] theorem clearRegisters_opa : (s.clearRegisters).opa = 0#16 := rfl
@[simp] theorem clearRegisters_opb : (s.clearRegisters).opb = 0#16 := rfl
@[simp] theorem clearRegisters_res0 : (s.clearRegisters).res0 = 0#32 := rfl
@[simp] theorem clearRegisters_res1 : (s.clearRegisters).res1 = 0#32 := rfl
@[simp] theorem clearRegisters_res2 : (s.clearRegisters).res2 = 0#32 := rfl
@[simp] theorem clearRegisters_len : (s.clearRegisters).len = 0#16 := rfl
@[simp] theorem clearRegisters_kpLen : (s.clearRegisters).kpLen = 0#16 := rfl
@[simp] theorem clearRegisters_topn : (s.clearRegisters).topn = 0#16 := rfl
@[simp] theorem clearRegisters_invCount : (s.clearRegisters).invCount = 0#32 := rfl
@[simp] theorem clearRegisters_retained : (s.clearRegisters).retained = 0#32 := rfl
@[simp] theorem clearRegisters_nresults : (s.clearRegisters).nresults = 0#32 := rfl
@[simp] theorem clearRegisters_mem : (s.clearRegisters).mem = s.mem := rfl
@[simp] theorem clearRegisters_pending : (s.clearRegisters).pending = none := rfl
@[simp] theorem clearRegisters_rst : (s.clearRegisters).rst = s.rst := rfl
@[simp] theorem clearRegisters_events : (s.clearRegisters).events = s.events := rfl
@[simp] theorem clearRegisters_resp : (s.clearRegisters).resp = s.resp := rfl
@[simp] theorem clearRegisters_epoch : (s.clearRegisters).epoch = s.epoch := rfl
@[simp] theorem clearRegisters_fresh : (s.clearRegisters).fresh = s.fresh := rfl

/-! ### powerOn -/

@[simp] theorem powerOn_cfg : (s.powerOn).cfg = s.cfg := rfl
@[simp] theorem powerOn_ie : (s.powerOn).ie = false := rfl
@[simp] theorem powerOn_done : (s.powerOn).done = false := rfl
@[simp] theorem powerOn_matched : (s.powerOn).matched = false := rfl
@[simp] theorem powerOn_werr : (s.powerOn).werr = false := rfl
@[simp] theorem powerOn_errcode : (s.powerOn).errcode = .noError := rfl
@[simp] theorem powerOn_cmd : (s.powerOn).cmd = 0#32 := rfl
@[simp] theorem powerOn_key : (s.powerOn).key = ⟨0, 0, 0, 0⟩ := rfl
@[simp] theorem powerOn_opa : (s.powerOn).opa = 0#16 := rfl
@[simp] theorem powerOn_opb : (s.powerOn).opb = 0#16 := rfl
@[simp] theorem powerOn_res0 : (s.powerOn).res0 = 0#32 := rfl
@[simp] theorem powerOn_res1 : (s.powerOn).res1 = 0#32 := rfl
@[simp] theorem powerOn_res2 : (s.powerOn).res2 = 0#32 := rfl
@[simp] theorem powerOn_len : (s.powerOn).len = 0#16 := rfl
@[simp] theorem powerOn_kpLen : (s.powerOn).kpLen = 0#16 := rfl
@[simp] theorem powerOn_topn : (s.powerOn).topn = 0#16 := rfl
@[simp] theorem powerOn_invCount : (s.powerOn).invCount = 0#32 := rfl
@[simp] theorem powerOn_retained : (s.powerOn).retained = 0#32 := rfl
@[simp] theorem powerOn_nresults : (s.powerOn).nresults = 0#32 := rfl
@[simp] theorem powerOn_mem : (s.powerOn).mem = [] := rfl
@[simp] theorem powerOn_pending : (s.powerOn).pending = none := rfl
@[simp] theorem powerOn_rst : (s.powerOn).rst = s.rst := rfl
@[simp] theorem powerOn_events : (s.powerOn).events = s.events := rfl
@[simp] theorem powerOn_resp : (s.powerOn).resp = s.resp := rfl
@[simp] theorem powerOn_epoch : (s.powerOn).epoch = s.fresh := rfl
@[simp] theorem powerOn_fresh : (s.powerOn).fresh = s.fresh + 1 := rfl

end Sys2Proof.Laws
end

