-- ==== Sys2Proof/Laws/Memory.lean ====
section
/-! SUPPORT. The laws of the buffers' memory: what a read finds after a store, and that a store keeps the canonical form. -/

namespace Sys2Proof.Laws

open Sys2Proof.Machine

/-! ## Reading -/

@[simp] theorem listed?_nil (x : Nat) : Memory.listed? [] x = none := rfl

theorem listed?_cons (a : Nat) (b : Byte) (m : Memory) (x : Nat) :
    Memory.listed? ((a, b) :: m) x = if a = x then some b else m.listed? x := rfl

@[simp] theorem read?_nil (x : Nat) : Memory.read? [] x = unlisted? x := rfl

theorem read?_cons (a : Nat) (b : Byte) (m : Memory) (x : Nat) :
    Memory.read? ((a, b) :: m) x = if a = x then some b else m.read? x := by
  rw [Memory.read?, listed?_cons]
  split <;> rfl

theorem listed?_append (m n : Memory) (x : Nat) :
    Memory.listed? (m ++ n) x = (m.listed? x).or (n.listed? x) := by
  induction m with
  | nil => simp
  | cons c m ih =>
    obtain ⟨a, b⟩ := c
    rw [List.cons_append, listed?_cons, listed?_cons, ih]
    split <;> simp

theorem listed?_filter (p : Nat → Bool) (m : Memory) (x : Nat) :
    Memory.listed? (m.filter (fun c => p c.1)) x = if p x then m.listed? x else none := by
  induction m with
  | nil => simp
  | cons c m ih =>
    obtain ⟨a, b⟩ := c
    by_cases hax : a = x
    · subst hax
      by_cases hp : p a <;> simp [hp, listed?_cons, ih]
    · by_cases hp : p a <;> simp [hp, listed?_cons, hax, ih]

theorem listed?_cellsFrom (base : Nat) (bs : List Byte) (x : Nat) :
    Memory.listed? (cellsFrom base bs) x = if base ≤ x then bs[x - base]? else none := by
  induction bs generalizing base with
  | nil => simp [cellsFrom]
  | cons b bs ih =>
    rw [cellsFrom, listed?_cons, ih]
    by_cases h : base = x
    · subst h; simp
    · rw [if_neg h]
      by_cases hle : base + 1 ≤ x
      · have : x - base = (x - (base + 1)) + 1 := by omega
        rw [if_pos hle, if_pos (by omega), this, List.getElem?_cons_succ]
      · rw [if_neg hle, if_neg (by omega)]

theorem cellsFrom_mem {base : Nat} {bs : List Byte} {c : Host.Cell} (h : c ∈ cellsFrom base bs) :
    base ≤ c.1 ∧ c.1 < base + bs.length := by
  induction bs generalizing base with
  | nil => simp [cellsFrom] at h
  | cons b bs ih =>
    rw [cellsFrom, List.mem_cons] at h
    rcases h with rfl | h
    · simp
    · have := ih h
      simp only [List.length_cons]; omega

/-- A cell of consecutive bytes holds the byte at its place. -/
theorem cellsFrom_getElem? {base : Nat} {bs : List Byte} {c : Host.Cell} (h : c ∈ cellsFrom base bs) :
    bs[c.1 - base]? = some c.2 := by
  induction bs generalizing base with
  | nil => simp [cellsFrom] at h
  | cons b bs ih =>
    rw [cellsFrom, List.mem_cons] at h
    rcases h with rfl | h
    · simp
    · have hb := (cellsFrom_mem h).1
      rw [show c.1 - base = (c.1 - (base + 1)) + 1 by omega, List.getElem?_cons_succ]
      exact ih h

/-- The cells of consecutive bytes have rising addresses. -/
theorem cellsFrom_rising (base : Nat) (bs : List Byte) : (cellsFrom base bs).Pairwise (fun x y => x.1 < y.1) := by
  induction bs generalizing base with
  | nil => exact List.Pairwise.nil
  | cons b bs ih =>
    refine List.Pairwise.cons (fun c hc => ?_) (ih _)
    have := (cellsFrom_mem hc).1
    exact this

/-- An offset that no entry has is not listed. -/
theorem listed?_none {m : Memory} {x : Nat} (h : ∀ c ∈ m, c.1 ≠ x) : m.listed? x = none := by
  induction m with
  | nil => rfl
  | cons c m ih =>
    obtain ⟨a, b⟩ := c
    rw [listed?_cons, if_neg (h _ List.mem_cons_self), ih fun c hc => h c (List.mem_cons_of_mem _ hc)]

/-- Entries that their offsets do not need can be left out: every offset reads as before. -/
theorem read?_filter_needed {m : Memory} (h : m.Pairwise (fun x y => x.1 < y.1)) (x : Nat) :
    Memory.read? (m.filter cellNeeded) x = m.read? x := by
  induction m with
  | nil => rfl
  | cons c m ih =>
    obtain ⟨a, b⟩ := c
    have hm := List.pairwise_cons.1 h
    by_cases hn : cellNeeded (a, b) = true
    · rw [List.filter_cons_of_pos hn, read?_cons, read?_cons, ih hm.2]
    · rw [List.filter_cons_of_neg hn, ih hm.2, read?_cons]
      split
      · rename_i hax
        subst hax
        have hl : Memory.listed? m a = none := listed?_none fun c hc => Nat.ne_of_gt (hm.1 c hc)
        simpa [Memory.read?, hl, cellNeeded] using hn
      · rfl

/-- A read after a store: inside the stored bytes it finds them, outside what was there before. -/
theorem read?_store (m : Memory) (base : Nat) (bs : List Byte) (x : Nat) :
    (m.store base bs).read? x =
      if base ≤ x ∧ x < base + bs.length then bs[x - base]? else m.read? x := by
  have hc : (Memory.listed? ((cellsFrom base bs).filter cellNeeded) x).or (unlisted? x) =
      (if base ≤ x then bs[x - base]? else none).or (unlisted? x) := by
    rw [← listed?_cellsFrom]; exact read?_filter_needed (cellsFrom_rising base bs) x
  rw [Memory.read?, Memory.read?, Memory.store, listed?_append, listed?_append,
    listed?_filter (fun a => decide (a < base)), listed?_filter (fun a => decide (base + bs.length ≤ a))]
  simp only [decide_eq_true_eq]
  by_cases h1 : base ≤ x
  · rw [if_neg (show ¬ x < base by omega), Option.none_or]
    rw [if_pos h1] at hc
    by_cases h2 : x < base + bs.length
    · rw [if_neg (show ¬ base + bs.length ≤ x by omega), if_pos ⟨h1, h2⟩, Option.or_none, hc,
        List.getElem?_eq_getElem (show x - base < bs.length by omega), Option.some_or]
    · have hn : Memory.listed? ((cellsFrom base bs).filter cellNeeded) x = none :=
        listed?_none fun c hc => by have := (cellsFrom_mem (List.mem_filter.1 hc).1).2; omega
      rw [if_pos (show base + bs.length ≤ x by omega), if_neg (fun h => h2 h.2), hn, Option.none_or]
  · have hn : Memory.listed? ((cellsFrom base bs).filter cellNeeded) x = none :=
      listed?_none fun c hc => by have := (cellsFrom_mem (List.mem_filter.1 hc).1).1; omega
    rw [if_pos (show x < base by omega), if_neg (show ¬ base + bs.length ≤ x by omega),
      if_neg (fun h => h1 h.1), hn, Option.none_or, Option.or_none]

/-! ## The canonical form -/

/-- A store keeps the canonical form. -/
theorem store_wf {m : Memory} (h : m.wf) (base : Nat) (bs : List Byte) : (m.store base bs).wf := by
  refine ⟨List.pairwise_append.2 ⟨h.1.filter _,
    List.pairwise_append.2 ⟨(cellsFrom_rising _ _).filter _, h.1.filter _, ?_⟩, ?_⟩, ?_⟩
  · intro x hx y hy
    have hx' := (cellsFrom_mem (List.mem_filter.1 hx).1).2
    have hy' := (List.mem_filter.1 hy).2
    simp only [decide_eq_true_eq] at hy'
    omega
  · intro x hx y hy
    have hx' := (List.mem_filter.1 hx).2
    simp only [decide_eq_true_eq] at hx'
    rcases List.mem_append.1 hy with hy | hy
    · have := (cellsFrom_mem (List.mem_filter.1 hy).1).1; omega
    · have hy' := (List.mem_filter.1 hy).2
      simp only [decide_eq_true_eq] at hy'
      omega
  · intro c hc
    rcases List.mem_append.1 hc with hc | hc
    · exact h.2 c (List.mem_filter.1 hc).1
    · rcases List.mem_append.1 hc with hc | hc
      · exact (List.mem_filter.1 hc).2
      · exact h.2 c (List.mem_filter.1 hc).1

/-- Every entry of a stored memory is an old one, or a stored byte that its offset needs. -/
theorem mem_store {m : Memory} {base : Nat} {bs : List Byte} {c : Host.Cell} (h : c ∈ m.store base bs) :
    c ∈ m ∨ (c ∈ cellsFrom base bs ∧ cellNeeded c = true) := by
  rcases List.mem_append.1 h with h | h
  · exact .inl (List.mem_filter.1 h).1
  · rcases List.mem_append.1 h with h | h
    · exact .inr (List.mem_filter.1 h)
    · exact .inl (List.mem_filter.1 h).1

theorem scramble_wf {m : Memory} (h : m.wf) (tag : Nat) (r : Nat × Nat) : (m.scramble tag r).wf :=
  store_wf h _ _

/-- A scrambled region changes no byte outside it. -/
theorem read?_scramble_outside (tag : Nat) (m : Memory) (r : Nat × Nat) (x : Nat)
    (h : ¬ (r.1 ≤ x ∧ x < r.1 + r.2)) : (m.scramble tag r).read? x = m.read? x := by
  rw [Memory.scramble, read?_store, if_neg (by simpa using h)]

/-- A reserved byte needs no entry for a 0. -/
theorem cellNeeded_reserved {a : Nat} (h : rtabReserved a = true) : cellNeeded (a, 0#8) = false := by
  simp [cellNeeded, unlisted?, h]

/-- A scrambled region lists no new reserved byte. -/
theorem mem_scramble {m : Memory} {tag : Nat} {r : Nat × Nat} {c : Host.Cell} (h : c ∈ m.scramble tag r) :
    c ∈ m ∨ (r.1 ≤ c.1 ∧ c.1 < r.1 + r.2 ∧ rtabReserved c.1 = false) := by
  rcases mem_store h with h | ⟨h, hn⟩
  · exact .inl h
  · have hr := cellsFrom_mem h
    rw [List.length_map, List.length_range] at hr
    refine .inr ⟨hr.1, hr.2, ?_⟩
    by_contra hres
    rw [Bool.not_eq_false] at hres
    have hb := cellsFrom_getElem? h
    rw [List.getElem?_map, List.getElem?_range (by omega), Option.map_some,
      show r.1 + (c.1 - r.1) = c.1 by omega, scrambledByte, if_pos hres] at hb
    injection hb with hb
    obtain ⟨a, b⟩ := c
    simp only at hb hres
    rw [← hb, cellNeeded_reserved hres] at hn
    cases hn

/-- A reserved byte of RTAB that is not listed reads 0 (R45, U2). -/
theorem read?_reserved {m : Memory} {a : Nat} (h : rtabReserved a = true) (hm : ∀ c ∈ m, c.1 ≠ a) :
    m.read? a = some 0#8 := by
  rw [Memory.read?, listed?_none hm, Option.none_or, unlisted?, if_pos h]

/-! ## Bytes of a state -/

theorem byteAt_congr {s t : State} (hm : t.mem = s.mem) (he : t.epoch = s.epoch) (a : Nat) :
    t.byteAt a = s.byteAt a := by simp [State.byteAt, hm, he]

/-- The bytes of a state after a store. -/
theorem byteAt_storeBytes (s : State) (base : Nat) (bs : List Byte) (a : Nat) :
    (s.storeBytes base bs).byteAt a =
      if base ≤ a ∧ a < base + bs.length then (bs[a - base]?).getD 0#8 else s.byteAt a := by
  simp only [State.byteAt, storeBytes_mem, storeBytes_epoch, read?_store]
  by_cases h : base ≤ a ∧ a < base + bs.length
  · have h' : a - base < bs.length := by omega
    simp [h, List.getElem?_eq_getElem h']
  · simp [h]

/-- A byte inside what a store wrote. -/
theorem byteAt_storeBytes_inside (s : State) (base : Nat) (bs : List Byte) (i : Nat) (h : i < bs.length) :
    (s.storeBytes base bs).byteAt (base + i) = bs[i] := by
  rw [byteAt_storeBytes, if_pos (by omega)]
  simp [List.getElem?_eq_getElem h]

/-- A byte outside what a store wrote. -/
theorem byteAt_storeBytes_outside (s : State) (base : Nat) (bs : List Byte) (a : Nat)
    (h : a < base ∨ base + bs.length ≤ a) : (s.storeBytes base bs).byteAt a = s.byteAt a := by
  rw [byteAt_storeBytes, if_neg (by omega)]

/-! ## Words -/

/-- The bytes of a word, put together again, are the word (R64). -/
theorem wordOfBytes_wordBytes (w : Word) :
    wordOfBytes (w.extractLsb' 0 8) (w.extractLsb' 8 8) (w.extractLsb' 16 8) (w.extractLsb' 24 8) = w := by
  apply BitVec.eq_of_getLsbD_eq
  intro i hi
  simp only [wordOfBytes, BitVec.getLsbD_append, BitVec.getLsbD_extractLsb']
  rcases Nat.lt_or_ge i 8 with h | h
  · simp [h]
  · rcases Nat.lt_or_ge i 16 with h2 | h2
    · have e : 8 + (i - 8) = i := by omega
      have : i - 8 < 8 := by omega
      simp [show ¬ i < 8 by omega, this, e]
    · rcases Nat.lt_or_ge i 24 with h3 | h3
      · have e : 16 + (i - 8 - 8) = i := by omega
        have : i - 8 - 8 < 8 := by omega
        simp [show ¬ i < 8 by omega, show ¬ i - 8 < 8 by omega, this, e]
      · have e : 24 + (i - 8 - 8 - 8) = i := by omega
        have : i - 8 - 8 - 8 < 8 := by omega
        simp [show ¬ i < 8 by omega, show ¬ i - 8 < 8 by omega, show ¬ i - 8 - 8 < 8 by omega, this, e]

@[simp] theorem wordBytes_length (w : Word) : (wordBytes w).length = 4 := rfl

/-- The word stored at an offset reads back there. -/
theorem wordAt_storeBytes_wordBytes (s : State) (a : Nat) (w : Word) :
    (s.storeBytes a (wordBytes w)).wordAt a = w := by
  have h0 := byteAt_storeBytes_inside s a (wordBytes w) 0 (by simp)
  have h1 := byteAt_storeBytes_inside s a (wordBytes w) 1 (by simp)
  have h2 := byteAt_storeBytes_inside s a (wordBytes w) 2 (by simp)
  have h3 := byteAt_storeBytes_inside s a (wordBytes w) 3 (by simp)
  simp only [Nat.add_zero] at h0
  rw [State.wordAt, h0, h1, h2, h3]
  exact wordOfBytes_wordBytes w

end Sys2Proof.Laws
end

