-- ==== Sys2Proof/Laws/Ops.lean ====
section
/-! SUPPORT. What the shared operations can do: completions, dropped writes, the resets, a transaction, a step. -/

namespace Sys2Proof.Laws

open Sys2Proof.Machine

variable (s t : State)

/-! ## Completions -/

theorem raise_eq (c : ErrCode) : raise c s = .next (s.finish c) := rfl

theorem succeed_eq : succeed s = .next (s.finish .noError) := rfl

/-- All that a raised error can do (R222). -/
theorem raise_next_iff (c : ErrCode) : raise c s = .next t ↔ t = s.finish c := by
  rw [raise_eq]; exact ⟨fun h => by injection h with h; exact h.symm, fun h => by rw [h]⟩

/-- All that a success can do beyond the effects already applied (R102). -/
theorem succeed_next_iff : succeed s = .next t ↔ t = s.finish .noError := by
  rw [succeed_eq]; exact ⟨fun h => by injection h with h; exact h.symm, fun h => by rw [h]⟩

@[simp] theorem finish_byteAt (c : ErrCode) (a : Nat) : (s.finish c).byteAt a = s.byteAt a := rfl

@[simp] theorem respond_byteAt (r : Response) (a : Nat) : (s.respond r).byteAt a = s.byteAt a := rfl

@[simp] theorem setRes0_byteAt (w : Word) (a : Nat) : (s.setRes0 w).byteAt a = s.byteAt a := rfl

@[simp] theorem setRes1_byteAt (w : Word) (a : Nat) : (s.setRes1 w).byteAt a = s.byteAt a := rfl

@[simp] theorem setRes2_byteAt (w : Word) (a : Nat) : (s.setRes2 w).byteAt a = s.byteAt a := rfl

@[simp] theorem setCounters_byteAt (n i r : Word) (a : Nat) : (s.setCounters n i r).byteAt a = s.byteAt a := rfl

@[simp] theorem setMatched_byteAt (a : Nat) : s.setMatched.byteAt a = s.byteAt a := rfl

/-- OBUF[i] after a stream is stored (R152). -/
theorem byteAt_storeObuf_inside (r : List Residue) (i : Nat) (h : i < r.length) :
    (s.storeObuf r).byteAt (obufAddr i) = residueByte r[i] := by
  have := byteAt_storeBytes_inside s (obufAddr 0) (r.map residueByte) i (by simpa using h)
  simpa [State.storeObuf, obufAddr] using this

/-- A stored stream changes no byte outside OBUF[0 … L) (R66). -/
theorem byteAt_storeObuf_outside (r : List Residue) (a : Nat) (h : a < obufAddr 0 ∨ obufAddr r.length ≤ a) :
    (s.storeObuf r).byteAt a = s.byteAt a := by
  refine byteAt_storeBytes_outside s _ _ a ?_
  simpa [obufAddr] using h

/-! ## Writes while busy -/

theorem unlessBusy_of_busy (h : s.busy = true) : s.unlessBusy t = { s with werr := true } := by
  simp [State.unlessBusy, h]

theorem unlessBusy_of_idle (h : s.busy = false) : s.unlessBusy t = t := by
  simp [State.unlessBusy, h]

theorem busy_eq_false_iff : s.busy = false ↔ s.pending = none := by
  simp [State.busy]

theorem busy_eq_true_iff : s.busy = true ↔ ∃ w, s.pending = some w := by
  simp [State.busy, Option.isSome_iff_exists]

/-! ## Reset -/

theorem softReset_of_idle (h : s.pending = none) : s.softReset = s.clearRegisters := by
  simp [State.softReset, h]

@[simp] theorem softReset_cfg : s.softReset.cfg = s.cfg := by
  unfold State.softReset; split <;> rfl
@[simp] theorem softReset_ie : s.softReset.ie = false := by
  unfold State.softReset; split <;> rfl
@[simp] theorem softReset_done : s.softReset.done = false := by
  unfold State.softReset; split <;> rfl
@[simp] theorem softReset_matched : s.softReset.matched = false := by
  unfold State.softReset; split <;> rfl
@[simp] theorem softReset_werr : s.softReset.werr = false := by
  unfold State.softReset; split <;> rfl
@[simp] theorem softReset_errcode : s.softReset.errcode = .noError := by
  unfold State.softReset; split <;> rfl
@[simp] theorem softReset_cmd : s.softReset.cmd = 0#32 := by
  unfold State.softReset; split <;> rfl
@[simp] theorem softReset_key : s.softReset.key = ⟨0, 0, 0, 0⟩ := by
  unfold State.softReset; split <;> rfl
@[simp] theorem softReset_opa : s.softReset.opa = 0#16 := by
  unfold State.softReset; split <;> rfl
@[simp] theorem softReset_opb : s.softReset.opb = 0#16 := by
  unfold State.softReset; split <;> rfl
@[simp] theorem softReset_res0 : s.softReset.res0 = 0#32 := by
  unfold State.softReset; split <;> rfl
@[simp] theorem softReset_res1 : s.softReset.res1 = 0#32 := by
  unfold State.softReset; split <;> rfl
@[simp] theorem softReset_res2 : s.softReset.res2 = 0#32 := by
  unfold State.softReset; split <;> rfl
@[simp] theorem softReset_len : s.softReset.len = 0#16 := by
  unfold State.softReset; split <;> rfl
@[simp] theorem softReset_kpLen : s.softReset.kpLen = 0#16 := by
  unfold State.softReset; split <;> rfl
@[simp] theorem softReset_topn : s.softReset.topn = 0#16 := by
  unfold State.softReset; split <;> rfl
@[simp] theorem softReset_invCount : s.softReset.invCount = 0#32 := by
  unfold State.softReset; split <;> rfl
@[simp] theorem softReset_retained : s.softReset.retained = 0#32 := by
  unfold State.softReset; split <;> rfl
@[simp] theorem softReset_nresults : s.softReset.nresults = 0#32 := by
  unfold State.softReset; split <;> rfl
@[simp] theorem softReset_pending : s.softReset.pending = none := by
  unfold State.softReset; split <;> rfl
@[simp] theorem softReset_rst : s.softReset.rst = s.rst := by
  unfold State.softReset; split <;> rfl
@[simp] theorem softReset_events : s.softReset.events = s.events := by
  unfold State.softReset; split <;> rfl
@[simp] theorem softReset_resp : s.softReset.resp = s.resp := by
  unfold State.softReset; split <;> rfl
@[simp] theorem softReset_epoch : s.softReset.epoch = s.epoch := by
  unfold State.softReset; split <;> rfl

/-- A list of scrambled regions keeps the canonical form. -/
theorem foldl_scramble_wf {m : Memory} (h : m.wf) (tag : Nat) (rs : List (Nat × Nat)) :
    (rs.foldl (Memory.scramble tag) m).wf := by
  induction rs generalizing m with
  | nil => exact h
  | cons r rs ih => exact ih (scramble_wf h tag r)

/-- Scrambled regions change no byte outside all of them. -/
theorem read?_foldl_scramble_outside (tag : Nat) (rs : List (Nat × Nat)) (m : Memory) (x : Nat)
    (h : ∀ r ∈ rs, ¬ (r.1 ≤ x ∧ x < r.1 + r.2)) : (rs.foldl (Memory.scramble tag) m).read? x = m.read? x := by
  induction rs generalizing m with
  | nil => rfl
  | cons r rs ih =>
    rw [List.foldl_cons, ih _ (fun q hq => h q (List.mem_cons_of_mem _ hq)),
      read?_scramble_outside _ _ _ _ (h r List.mem_cons_self)]

/-- A soft reset keeps the canonical form. -/
theorem softReset_wf (h : s.mem.wf) : s.softReset.mem.wf := by
  unfold State.softReset
  split
  · exact h
  · exact foldl_scramble_wf h _ _

/-! ## A transaction -/

/-- All that a transaction can do: BusError, a read, or a write. -/
theorem transact_cases (x : Transaction) :
    (x.target s.cfg = none ∧ s.transact x = s.respond .busError) ∨
    (∃ g, x.target s.cfg = some g ∧ x.op = .read ∧ s.transact x = s.hostRead g) ∨
    (∃ g w, x.target s.cfg = some g ∧ x.op = .write w ∧ s.transact x = (s.writeTarget w g).respond .ok) := by
  unfold State.transact
  cases hg : x.target s.cfg with
  | none => exact .inl ⟨rfl, rfl⟩
  | some g =>
    cases ho : x.op with
    | read => exact .inr (.inl ⟨g, rfl, rfl, rfl⟩)
    | write w => exact .inr (.inr ⟨g, w, rfl, rfl, rfl⟩)

/-- All that a host read can do (R67): the response, and for a volatile output one free value drawn. -/
theorem hostRead_cases (g : Target) :
    (s.busy = true ∧ s.volatileTarget g = true ∧
      s.hostRead g = { s with resp := some (.data (Config.volatileWord s.fresh)), fresh := s.fresh + 1 }) ∨
    ((s.busy = false ∨ s.volatileTarget g = false) ∧
      s.hostRead g = { s with resp := some (.data (s.targetWord g)) }) := by
  unfold State.hostRead
  cases hb : s.busy <;> cases hv : s.volatileTarget g <;> simp [State.respond]

/-! ## A step -/

theorem step_of_no_events (h : s.events = []) : step s = engineTurn s := by
  simp [step, h]

theorem step_of_event (e : Event) (es : List Event) (h : s.events = e :: es) :
    step s = handle e { s with events := es } := by
  simp [step, h]

theorem engineTurn_of_idle (h : s.pending = none) : engineTurn s = .next s := by
  simp [engineTurn, h]

theorem engineTurn_of_pending (w : Word) (h : s.pending = some w) : engineTurn s = complete w s := by
  simp [engineTurn, h]

theorem complete_of_decoded (w : Word) (i : Instr) (h : decode w = .ok i) : complete w s = exec i s := by
  simp [complete, h]

theorem complete_of_illegal (w : Word) (e : DecodeError) (h : decode w = .error e) :
    complete w s = .next (s.finish .illegalCmd) := by
  simp [complete, h, completeIllegal, raise]

/-- All that a step can do: a turn of the engine, a transaction with `rst` released, or a change of `rst`. -/
theorem step_next_cases (h : step s = .next t) :
    (∃ es, (s.events = [] ∧ es = [] ∨ s.events = .engine :: es) ∧
      engineTurn { s with events := es } = .next t) ∨
    (∃ x es, s.events = .bus x :: es ∧ s.rst = false ∧ t = State.transact { s with events := es } x) ∨
    (∃ level es, s.events = .rst level :: es ∧ t = State.driveRst { s with events := es } level) := by
  cases he : s.events with
  | nil =>
    rw [step_of_no_events s he] at h
    refine .inl ⟨[], .inl ⟨rfl, rfl⟩, ?_⟩
    rw [← h, ← he]
  | cons e es =>
    rw [step_of_event s e es he] at h
    cases e with
    | bus x =>
      cases hr : s.rst with
      | true => simp [handle, hr] at h
      | false =>
        simp only [handle, hr, Bool.false_eq_true, if_false] at h
        injection h with h
        exact .inr (.inl ⟨x, es, rfl, rfl, h.symm⟩)
    | rst level =>
      simp only [handle] at h
      injection h with h
      exact .inr (.inr ⟨level, es, rfl, h.symm⟩)
    | engine => exact .inl ⟨es, .inr rfl, h⟩

end Sys2Proof.Laws
end

