-- ==== Sys2Proof/Laws/Bus.lean ====
section
/-! SUPPORT. Laws of the bus port: what legal parameters are, which target a transaction has, and what it then does. -/

namespace Sys2Proof.Laws

open Sys2Proof.Machine

/-- The legal ranges of R9, one by one. -/
theorem legal_iff (p : Params) : p.legal = true ↔
    (p.ibufSize % 4 = 0 ∧ 4 ≤ p.ibufSize ∧ p.ibufSize ≤ 4096) ∧ (p.kpSize % 4 = 0 ∧ 4 ≤ p.kpSize ∧ p.kpSize ≤ 252) ∧
      (1 ≤ p.topnMax ∧ p.topnMax ≤ 255) ∧ (1 ≤ p.nlanes ∧ p.nlanes ≤ 65535) := by
  simp [Params.legal, Params.ibufSizeOk, Params.kpSizeOk, Params.topnMaxOk, Params.nlanesOk, and_assoc]

/-- The target of an aligned 32-bit read of the window. -/
theorem target_readTx (p : Params) (off : Nat) (h : off < 0x8000) (h4 : off % 4 = 0) :
    (readTx off).target p = targetAt p off := by
  have : off % 32768 = off := Nat.mod_eq_of_lt h
  simp [Transaction.target, readTx, this, h4]

/-- The target of an aligned 32-bit write of the window. -/
theorem target_writeTx (p : Params) (off : Nat) (w : Word) (h : off < 0x8000) (h4 : off % 4 = 0) :
    (writeTx off w).target p = targetAt p off := by
  have : off % 32768 = off := Nat.mod_eq_of_lt h
  simp [Transaction.target, writeTx, this, h4]

/-- A register is found at its own offset only. -/
theorem regAt_some {off : Nat} {r : Reg} (h : regAt off = some r) : r.offset = off := by
  unfold regAt at h
  split at h <;> first | (injection h with h; subst h; rfl) | cases h

theorem transact_none (s : State) (x : Transaction) (h : x.target s.cfg = none) :
    s.transact x = s.respond .busError := by
  simp [State.transact, h]

theorem transact_read (s : State) (x : Transaction) (g : Target)
    (h : x.target s.cfg = some g) (ho : x.op = .read) : s.transact x = s.hostRead g := by
  simp [State.transact, h, ho]

theorem transact_write (s : State) (x : Transaction) (g : Target) (w : Word)
    (h : x.target s.cfg = some g) (ho : x.op = .write w) : s.transact x = (s.writeTarget w g).respond .ok := by
  simp [State.transact, h, ho]

/-- A read of a target that is no volatile output, or while nothing is pending, answers the stored value. -/
theorem hostRead_stored (s : State) (g : Target) (h : s.busy = false ∨ s.volatileTarget g = false) :
    s.hostRead g = { s with resp := some (.data (s.targetWord g)) } := by
  unfold State.hostRead
  rcases h with h | h <;> simp [h, State.respond]

/-- W3 of an RTAB entry is stuck at 0 (R45, U2). -/
theorem targetWord_rtab_w3 (s : State) (i : Nat) (h : i % 16 = 12) : s.targetWord (.rtab i) = 0#32 := by
  simp [State.targetWord, h]

/-- A read of a volatile output while a command is pending answers the next free word. -/
theorem hostRead_volatile (s : State) (g : Target) (hb : s.busy = true) (h : s.volatileTarget g = true) :
    s.hostRead g = { s with resp := some (.data (Config.volatileWord s.fresh)), fresh := s.fresh + 1 } := by
  simp [State.hostRead, hb, h, State.respond]

end Sys2Proof.Laws
end

