-- ==== Sys2Proof/Laws/PerInstr.lean ====
section
/-! SUPPORT. Laws made per command. TableWord: a command's row of the opcode table, as the table numbers its bits, decodes to the command. -/

namespace Sys2Proof.Laws.TableWord

/-- The command is well formed and the number of its word decodes to it. -/
def Statement (i : Instr) : Prop :=
  i.wellFormed = true ∧ decodeTableWord 32 (encode i).toNat = some i

theorem nop : Statement .nop := by unfold Statement; decide
theorem egcd : Statement .egcd := by unfold Statement; decide
theorem modinv : Statement .modinv := by unfold Statement; decide
theorem det : Statement .det := by unfold Statement; decide
theorem invchk : Statement .invchk := by unfold Statement; decide
theorem invert : Statement .invert := by unfold Statement; decide
theorem encrypt : Statement .encrypt := by unfold Statement; decide
theorem decrypt : Statement .decrypt := by unfold Statement; decide
theorem score : Statement .score := by unfold Statement; decide
theorem search : Statement .search := by unfold Statement; decide
theorem searchkp : Statement .searchkp := by unfold Statement; decide

end Sys2Proof.Laws.TableWord
end

