-- ==== Sys2Proof/Laws/Search.lean ====
section
/-! SUPPORT. Small laws of the cipher, the scorer and the search: lengths, and the bounded list of best candidates as the prefix of the whole ranking, and what a whole search returns. -/

namespace Sys2Proof.Laws

open Sys2Proof.Machine

/-! ## Lengths -/

@[simp] theorem stream_length (s : State) : s.stream.length = s.streamLen := by simp [State.stream]

@[simp] theorem pattern_length (s : State) : s.pattern.length = s.patternLen := by simp [State.pattern]

/-- The transform keeps the length of a stream of even length (R150). -/
theorem apply_length (k : Key) (s : List Residue) (h : s.length % 2 = 0) : (k.apply s).length = s.length := by
  induction s using Key.apply.induct with
  | case1 x y s ih =>
    simp only [List.length_cons] at h
    rw [Key.apply, List.length_cons, List.length_cons, ih (by omega)]; rfl
  | case2 s hs =>
    match s, hs with
    | [], _ => rfl
    | [x], _ => simp at h
    | x :: y :: s, hs => exact absurd rfl (hs x y s)

@[simp] theorem entryBytes_length (x : Candidate) : (entryBytes x).length = 16 := rfl

@[simp] theorem slotBytes_length (x : Option Candidate) : (slotBytes x).length = 16 := by
  cases x <;> rfl

@[simp] theorem rtabImage_length (n : Nat) (es : List Candidate) : (rtabImage n es).length = 16 * n := by
  have h : ∀ js : List Nat, (js.flatMap (fun j => slotBytes es[j]?)).length = 16 * js.length := by
    intro js
    induction js with
    | nil => rfl
    | cons j js ih => rw [List.flatMap_cons, List.length_append, slotBytes_length, ih, List.length_cons]; omega
  rw [rtabImage, h, List.length_range]

/-- Byte k of entry j of RTAB's image. -/
theorem rtabImage_getElem? (n : Nat) (es : List Candidate) (j k : Nat) (hj : j < n) (hk : k < 16) :
    (rtabImage n es)[16 * j + k]? = (slotBytes es[j]?)[k]? := by
  have h : ∀ (js : List Nat) (j : Nat) (hj : j < js.length),
      (js.flatMap (fun j => slotBytes es[j]?))[16 * j + k]? = (slotBytes es[js[j]]?)[k]? := by
    intro js
    induction js with
    | nil => intro j hj; simp at hj
    | cons i js ih =>
      intro j hj
      rw [List.flatMap_cons]
      cases j with
      | zero => rw [List.getElem?_append_left (by simpa using hk)]; simp
      | succ j =>
        rw [List.getElem?_append_right (by simp; omega), slotBytes_length,
          show 16 * (j + 1) + k - 16 = 16 * j + k by omega, ih j (by simpa using hj)]
        simp
  rw [rtabImage, h (List.range n) j (by simpa using hj)]
  simp

/-- W3 of every place of RTAB's image is 0 (R45). -/
theorem slotBytes_w3 (x : Option Candidate) (k : Nat) (h : 12 ≤ k) (hk : k < 16) : (slotBytes x)[k]? = some 0#8 := by
  obtain rfl | rfl | rfl | rfl : k = 12 ∨ k = 13 ∨ k = 14 ∨ k = 15 := by omega
  all_goals cases x <;> rfl

/-- RTAB written whole lists no byte of W3. -/
theorem mem_storeRtab {s : State} {es : List Candidate} {c : Host.Cell} (h : c ∈ (s.storeRtab es).mem) :
    c ∈ s.mem ∨ (0x4000 ≤ c.1 ∧ c.1 < 0x4000 + 16 * s.cfg.topnMax ∧ rtabReserved c.1 = false) := by
  rcases mem_store h with h | ⟨h, hn⟩
  · exact .inl h
  · have hr := cellsFrom_mem h
    rw [rtabImage_length] at hr
    refine .inr ⟨hr.1, hr.2, ?_⟩
    by_contra hres
    rw [Bool.not_eq_false] at hres
    have hb := cellsFrom_getElem? h
    obtain ⟨a, b⟩ := c
    have ha : 0x4000 ≤ a ∧ 12 ≤ a % 16 := by
      simp only [rtabReserved, Bool.and_eq_true, decide_eq_true_eq] at hres; omega
    simp only [rtabAddr] at hr hb
    rw [show a - (0x4000 + 16 * 0 + 4 * 0) = 16 * ((a - 0x4000) / 16) + a % 16 by omega,
      rtabImage_getElem? _ _ _ _ (by omega) (by omega), slotBytes_w3 _ _ ha.2 (by omega)] at hb
    injection hb with hb
    rw [← hb, cellNeeded_reserved hres] at hn
    cases hn

/-! ## The completion writes of a search: what they leave alone -/

@[simp] theorem writeResult_cfg (s : State) (r : SearchResult) : (s.writeResult r).cfg = s.cfg := by cases r <;> rfl
@[simp] theorem writeResult_ie (s : State) (r : SearchResult) : (s.writeResult r).ie = s.ie := by cases r <;> rfl
@[simp] theorem writeResult_done (s : State) (r : SearchResult) : (s.writeResult r).done = s.done := by cases r <;> rfl
@[simp] theorem writeResult_werr (s : State) (r : SearchResult) : (s.writeResult r).werr = s.werr := by cases r <;> rfl
@[simp] theorem writeResult_errcode (s : State) (r : SearchResult) : (s.writeResult r).errcode = s.errcode := by cases r <;> rfl
@[simp] theorem writeResult_cmd (s : State) (r : SearchResult) : (s.writeResult r).cmd = s.cmd := by cases r <;> rfl
@[simp] theorem writeResult_key (s : State) (r : SearchResult) : (s.writeResult r).key = s.key := by cases r <;> rfl
@[simp] theorem writeResult_opa (s : State) (r : SearchResult) : (s.writeResult r).opa = s.opa := by cases r <;> rfl
@[simp] theorem writeResult_opb (s : State) (r : SearchResult) : (s.writeResult r).opb = s.opb := by cases r <;> rfl
@[simp] theorem writeResult_res0 (s : State) (r : SearchResult) : (s.writeResult r).res0 = s.res0 := by cases r <;> rfl
@[simp] theorem writeResult_res1 (s : State) (r : SearchResult) : (s.writeResult r).res1 = s.res1 := by cases r <;> rfl
@[simp] theorem writeResult_res2 (s : State) (r : SearchResult) : (s.writeResult r).res2 = s.res2 := by cases r <;> rfl
@[simp] theorem writeResult_len (s : State) (r : SearchResult) : (s.writeResult r).len = s.len := by cases r <;> rfl
@[simp] theorem writeResult_kpLen (s : State) (r : SearchResult) : (s.writeResult r).kpLen = s.kpLen := by cases r <;> rfl
@[simp] theorem writeResult_topn (s : State) (r : SearchResult) : (s.writeResult r).topn = s.topn := by cases r <;> rfl
@[simp] theorem writeResult_pending (s : State) (r : SearchResult) : (s.writeResult r).pending = s.pending := by cases r <;> rfl
@[simp] theorem writeResult_rst (s : State) (r : SearchResult) : (s.writeResult r).rst = s.rst := by cases r <;> rfl
@[simp] theorem writeResult_events (s : State) (r : SearchResult) : (s.writeResult r).events = s.events := by cases r <;> rfl
@[simp] theorem writeResult_resp (s : State) (r : SearchResult) : (s.writeResult r).resp = s.resp := by cases r <;> rfl
@[simp] theorem writeResult_epoch (s : State) (r : SearchResult) : (s.writeResult r).epoch = s.epoch := by cases r <;> rfl
@[simp] theorem writeResult_fresh (s : State) (r : SearchResult) : (s.writeResult r).fresh = s.fresh := by cases r <;> rfl

/-- A ranked result leaves MATCH as it is (R197). -/
@[simp] theorem writeResult_ranked_matched (s : State) (best : List Candidate) (inv retained : Nat) :
    (s.writeResult (.ranked best inv retained)).matched = s.matched := rfl

/-- A match sets MATCH (R198). -/
@[simp] theorem writeResult_matched_matched (s : State) (k : Key) (i : Nat) (t : List Residue) (inv retained : Nat) :
    (s.writeResult (.matched k i t inv retained)).matched = true := rfl

/-! ## Ranking -/

/-- Putting a candidate into a list and cutting it depends only on the list's first entries. -/
theorem take_insertRanked_take (x : Candidate) (n : Nat) (ys : List Candidate) :
    (insertRanked x (ys.take n)).take n = (insertRanked x ys).take n := by
  induction ys generalizing n with
  | nil => simp
  | cons y ys ih =>
    cases n with
    | zero => simp
    | succ n =>
      rw [List.take_succ_cons, insertRanked, insertRanked]
      split
      · rw [List.take_succ_cons, List.take_succ_cons]
        congr 1
        cases n with
        | zero => simp
        | succ n => simp [List.take_take]
      · rw [List.take_succ_cons, List.take_succ_cons, ih]

/-- The bounded list of the best is the prefix of the whole ranking (R190, R195, R207). -/
theorem best_eq_take_ranking (n : Nat) (kept : List Candidate) : best n kept = (ranking kept).take n := by
  induction kept with
  | nil => simp [best, ranking]
  | cons x kept ih =>
    have h1 : best n (x :: kept) = (insertRanked x (best n kept)).take n := rfl
    have h2 : ranking (x :: kept) = insertRanked x (ranking kept) := rfl
    rw [h1, h2, ih, take_insertRanked_take]

theorem best_length_le (n : Nat) (kept : List Candidate) : (best n kept).length ≤ n := by
  rw [best_eq_take_ranking]; simp [List.length_take]

theorem insertRanked_perm (x : Candidate) (ys : List Candidate) : (insertRanked x ys).Perm (x :: ys) := by
  induction ys with
  | nil => exact List.Perm.refl _
  | cons y ys ih =>
    rw [insertRanked]
    split
    · exact List.Perm.refl _
    · exact (List.Perm.cons y ih).trans (List.Perm.swap x y ys)

/-! ## The evaluation of one index -/

/-- Every determinant that passes the test of R128 has an inverse mod 26. -/
theorem modinv_26_isSome : ∀ d : Fin 26, Nat.gcd d.val 26 = 1 → (modinv d.val 26).isSome = true := by decide

/-- The inverse key exists exactly for an invertible key (R131). -/
theorem invert_isSome (k : Key) : k.invert.isSome = k.isInvertible := by
  unfold Key.invert
  cases h : k.isInvertible with
  | false => rfl
  | true =>
    have := modinv_26_isSome k.det (by simpa [Key.isInvertible] using h)
    simpa using this

/-- An index is an early-exit match exactly when a pattern was supplied and the plaintext contains it (R190). -/
theorem evaluate_isHit_iff (s : List Residue) (p : Option (List Residue)) (scoring : Bool) (i : Nat) :
    (evaluate s p scoring i).isHit = true ↔ ∃ q, p = some q ∧ matchesAt s q i := by
  unfold evaluate matchesAt
  cases (keyAt i).invert with
  | none => simp [Evaluation.isHit]
  | some k =>
    have hs (q : Prop) [Decidable q] (c : Option Candidate) :
        (if q then Evaluation.scored c else Evaluation.scored none).isHit = false := by split <;> rfl
    have ht (u : List Residue) : (Evaluation.hit u).isHit = true := rfl
    cases p with
    | none => simp [earlyExit, hs]
    | some q => cases h : contains (k.apply s) q <;> simp [earlyExit, h, hs, ht]

/-- An index is counted as invertible exactly when its key is (R192, R196). -/
theorem evaluate_isInvertible (s : List Residue) (p : Option (List Residue)) (scoring : Bool) (i : Nat) :
    (evaluate s p scoring i).isInvertible = (keyAt i).isInvertible := by
  rw [← invert_isSome]
  unfold evaluate
  cases (keyAt i).invert with
  | none => rfl
  | some k => dsimp only; split <;> (try split) <;> rfl

/-- What an index without a match retains, when it is scored (R190). -/
theorem evaluate_candidate? (s : List Residue) (p : Option (List Residue)) (i : Nat)
    (h : (evaluate s p true i).isHit = false) : (evaluate s p true i).candidate? = retainedAt s i := by
  unfold evaluate at h ⊢
  unfold retainedAt
  cases hk : (keyAt i).invert with
  | none => rfl
  | some k =>
    rw [hk] at h
    dsimp only at h ⊢
    split at h
    · cases h
    · rename_i he
      rw [if_neg he]
      by_cases hv : 0 < score (k.apply s) <;> simp [hv, Evaluation.candidate?]

/-- An index that is not scored retains nothing (U7). -/
theorem evaluate_candidate?_unscored (s : List Residue) (p : Option (List Residue)) (i : Nat) :
    (evaluate s p false i).candidate? = none := by
  unfold evaluate
  cases (keyAt i).invert with
  | none => rfl
  | some k => dsimp only; split <;> rfl

/-! ## The search loop -/

/-- One turn of the loop of R190, by what the index evaluates to. -/
theorem searchLoop_step (s : List Residue) (n : Nat) (p : Option (List Residue)) (scoring : Bool)
    (fuel i inv : Nat) (kept : List Candidate) :
    searchLoop s n p scoring (fuel + 1) i inv kept =
      match evaluate s p scoring i with
      | .singular => searchLoop s n p scoring fuel (i + 1) inv kept
      | .hit t => .matched (keyAt i) i t (inv + 1) kept.length
      | .scored (some c) => searchLoop s n p scoring fuel (i + 1) (inv + 1) (c :: kept)
      | .scored none => searchLoop s n p scoring fuel (i + 1) (inv + 1) kept := by
  rw [searchLoop]
  unfold evaluate
  cases (keyAt i).invert with
  | none => rfl
  | some k =>
    dsimp only
    split
    · rfl
    · split <;> rfl

/-- The loop over indices without a match: it goes through all of them. -/
theorem searchLoop_ranked (s : List Residue) (n : Nat) (p : Option (List Residue)) (scoring : Bool) :
    ∀ (fuel i inv : Nat) (kept : List Candidate),
      (∀ j, i ≤ j → j < i + fuel → (evaluate s p scoring j).isHit = false) →
      searchLoop s n p scoring fuel i inv kept =
        .ranked (best n (kept.reverse ++ ((List.range' i fuel).map (evaluate s p scoring)).filterMap Evaluation.candidate?))
          (inv + (((List.range' i fuel).map (evaluate s p scoring)).filter Evaluation.isInvertible).length)
          (kept.length + (((List.range' i fuel).map (evaluate s p scoring)).filterMap Evaluation.candidate?).length) := by
  intro fuel
  induction fuel with
  | zero => intro i inv kept _; simp [searchLoop]
  | succ fuel ih =>
    intro i inv kept h
    have hi := h i (Nat.le_refl i) (by omega)
    have ih := fun inv kept => ih (i + 1) inv kept (fun j h1 h2 => h j (by omega) (by omega))
    rw [searchLoop_step, List.range'_succ]
    cases he : evaluate s p scoring i with
    | singular =>
        simp only [List.map_cons, he, List.filterMap_cons, List.filter_cons, Evaluation.isInvertible,
          Evaluation.candidate?, ih, Bool.false_eq_true, if_false]
    | hit t => rw [he] at hi; cases hi
    | scored c =>
      cases c with
      | none =>
        simp only [List.map_cons, he, List.filterMap_cons, List.filter_cons, Evaluation.isInvertible,
          Evaluation.candidate?, ih, if_true, List.length_cons]
        congr 1; omega
      | some c =>
        simp only [List.map_cons, he, List.filterMap_cons, List.filter_cons, Evaluation.isInvertible,
          Evaluation.candidate?, ih, if_true, List.length_cons, List.reverse_cons, List.append_assoc,
          List.singleton_append]
        congr 1 <;> omega

/-- The loop up to the first match, `m` indices on. -/
theorem searchLoop_matched (s : List Residue) (n : Nat) (p : Option (List Residue)) (scoring : Bool) (t : List Residue) :
    ∀ (m fuel i inv : Nat) (kept : List Candidate),
      (∀ j, i ≤ j → j < i + m → (evaluate s p scoring j).isHit = false) →
      evaluate s p scoring (i + m) = .hit t → m < fuel →
      searchLoop s n p scoring fuel i inv kept =
        .matched (keyAt (i + m)) (i + m) t
          (inv + (((List.range' i m).map (evaluate s p scoring)).filter Evaluation.isInvertible).length + 1)
          (kept.length + (((List.range' i m).map (evaluate s p scoring)).filterMap Evaluation.candidate?).length) := by
  intro m
  induction m with
  | zero =>
    intro fuel i inv kept _ he hf
    cases fuel with
    | zero => omega
    | succ fuel => rw [searchLoop_step]; rw [Nat.add_zero] at he; simp [he]
  | succ m ih =>
    intro fuel i inv kept h ht hf
    cases fuel with
    | zero => omega
    | succ fuel =>
      have hi := h i (Nat.le_refl i) (by omega)
      have ih := fun inv kept => ih fuel (i + 1) inv kept (fun j h1 h2 => h j (by omega) (by omega))
        (by rw [← ht]; congr 1; omega) (by omega)
      rw [searchLoop_step, List.range'_succ]
      have e : i + (m + 1) = i + 1 + m := by omega
      cases he : evaluate s p scoring i with
      | singular =>
          simp only [List.map_cons, he, List.filterMap_cons, List.filter_cons, Evaluation.isInvertible,
          Evaluation.candidate?, ih, e, Bool.false_eq_true, if_false]
      | hit t => rw [he] at hi; cases hi
      | scored c =>
        cases c with
        | none =>
          simp only [List.map_cons, he, List.filterMap_cons, List.filter_cons, Evaluation.isInvertible,
          Evaluation.candidate?, ih, e, if_true, List.length_cons]
          congr 1; omega
        | some c =>
          simp only [List.map_cons, he, List.filterMap_cons, List.filter_cons, Evaluation.isInvertible,
          Evaluation.candidate?, ih, e, if_true, List.length_cons]
          congr 1 <;> omega

/-- A search that meets no match (R190, R197): the best of all retained candidates, and both counts. -/
theorem searchKeys_ranked (s : List Residue) (n : Nat) (p : Option (List Residue)) (scoring : Bool)
    (h : ∀ j, j < keySpace → (evaluate s p scoring j).isHit = false) :
    searchKeys s n p scoring =
      .ranked (best n (((List.range keySpace).map (evaluate s p scoring)).filterMap Evaluation.candidate?))
        (((List.range keySpace).map (evaluate s p scoring)).filter Evaluation.isInvertible).length
        (((List.range keySpace).map (evaluate s p scoring)).filterMap Evaluation.candidate?).length := by
  unfold searchKeys
  generalize keySpace = k at h ⊢
  rw [searchLoop_ranked s n p scoring k 0 0 [] (fun j _ hj => h j (by omega)), ← List.range_eq_range',
    Nat.zero_add, List.length_nil, Nat.zero_add, List.reverse_nil, List.nil_append]

/-- A search whose lowest match is at index `m` (R190, R198, R203), with the counts up to it. -/
theorem searchKeys_matched (s : List Residue) (n : Nat) (p : Option (List Residue)) (scoring : Bool) (m : Nat)
    (t : List Residue) (hm : m < keySpace) (ht : evaluate s p scoring m = .hit t)
    (h : ∀ j, j < m → (evaluate s p scoring j).isHit = false) :
    searchKeys s n p scoring =
      .matched (keyAt m) m t
        ((((List.range m).map (evaluate s p scoring)).filter Evaluation.isInvertible).length + 1)
        (((List.range m).map (evaluate s p scoring)).filterMap Evaluation.candidate?).length := by
  unfold searchKeys
  generalize keySpace = k at hm ⊢
  rw [searchLoop_matched s n p scoring t m k 0 0 [] (fun j _ hj => h j (by omega))
    (by rw [Nat.zero_add]; exact ht) hm, ← List.range_eq_range', List.length_nil]
  simp only [Nat.zero_add]

end Sys2Proof.Laws
end

