-- ==== Sys2Proof/Machine/HostNotation.lean ====
section
/-! DEFINITION. The bus transactions that the statements of the host notation stand for (spec/30_encoding.md R87, R92, R93). The notation is no instruction set of the H2ME (spec/00_scope.md R17): branches, labels and host variables are the host's and are not here; a poll stands for one read of STATUS after the engine's turn. -/

namespace Sys2Proof.Machine

/-- The buffers that `WRS` may name (R93). -/
inductive HostBuffer where
  | ibuf
  | obuf
  | kpbuf
deriving DecidableEq, Repr

/-- The statements that issue bus transactions. -/
inductive HostStatement where
  /-- `WR REG, v` -/
  | wr (r : Reg) (v : Word)
  /-- `WR off, v` -/
  | wrAt (off : Nat) (v : Word)
  /-- `RD hN, REG` -/
  | rd (r : Reg)
  /-- `RD hN, off` -/
  | rdAt (off : Nat)
  /-- `CMD M` -/
  | cmd (i : Instr)
  /-- `CMD v`, a raw word -/
  | cmdWord (v : Word)
  /-- `WAIT`, when its first poll finds the command completed -/
  | wait
  /-- `RUN M`: `CMD M`, then `WAIT` -/
  | run (i : Instr)
  /-- `WRS X, i, "LETTERS"`, with the letters' residues -/
  | wrs (x : HostBuffer) (i : Nat) (letters : List Residue)
  /-- `WRK a, b, c, d` -/
  | wrk (k : Key)
deriving DecidableEq, Repr

/-- An aligned 32-bit write of the window. -/
def busWrite (off : Nat) (v : Word) : Event := .bus (writeTx off v)

/-- An aligned 32-bit read of the window. -/
def busRead (off : Nat) : Event := .bus (readTx off)

/-- The region base B_X of a buffer (R64). -/
def HostBuffer.base : HostBuffer → Nat
  | .ibuf => ibufAddr 0
  | .obuf => obufAddr 0
  | .kpbuf => kpbufAddr 0

/-- The writes of `WRS` from an offset on: four residues a word, the last group padded with 0 bytes (R93). -/
def wrsEvents (off : Nat) : List Residue → List Event
  | r0 :: r1 :: r2 :: r3 :: rest =>
    busWrite off (wordOfBytes (residueByte r0) (residueByte r1) (residueByte r2) (residueByte r3)) ::
      wrsEvents (off + 4) rest
  | [r0, r1, r2] => [busWrite off (wordOfBytes (residueByte r0) (residueByte r1) (residueByte r2) 0#8)]
  | [r0, r1] => [busWrite off (wordOfBytes (residueByte r0) (residueByte r1) 0#8 0#8)]
  | [r0] => [busWrite off (wordOfBytes (residueByte r0) 0#8 0#8 0#8)]
  | [] => []

/-- The events a statement stands for (R92, R93). -/
def HostStatement.events : HostStatement → List Event
  | .wr r v => [busWrite r.offset v]
  | .wrAt off v => [busWrite off v]
  | .rd r => [busRead r.offset]
  | .rdAt off => [busRead off]
  | .cmd i => [busWrite Reg.cmd.offset (encode i)]
  | .cmdWord v => [busWrite Reg.cmd.offset v]
  | .wait => [.engine, busRead Reg.status.offset]
  | .run i => [busWrite Reg.cmd.offset (encode i), .engine, busRead Reg.status.offset]
  | .wrs x i letters => wrsEvents (x.base + i) letters
  | .wrk k => [busWrite Reg.key.offset k.pack]

/-- The events of a straight line of statements. -/
def hostProgram (p : List HostStatement) : List Event := p.flatMap HostStatement.events

end Sys2Proof.Machine
end

