-- ==== Sys2Proof/Tests/Slice0.lean ====
section
/-! SUPPORT. The model's own tests: words written out from spec/30_encoding.md R82, vectors of spec/95_test_vectors.md, the well-formedness smoke tests, and a witness for the hypotheses of every statement. -/

namespace Sys2Proof.Tests

open Sys2Proof.Machine

/-! ## Small states -/

/-- The state that a list of events leads to, from reset; reset itself if a step stops. -/
def runEvents (es : List Event) : State :=
  match Host.Core.run core es.length { State.reset with events := es } with
  | .next t => t
  | .fault _ => State.reset
  | .refused _ => State.reset

/-- The state after the step that completes a command; the state itself if the step stops. -/
def after (i : Instr) (s : State) : State :=
  match step (s.withFetchWord 32 (encode i).toNat) with
  | .next t => t
  | .fault _ => s
  | .refused _ => s

/-- Reset, with a key. -/
def withKey (a b c d : Residue) : State := { State.reset with key := ⟨a, b, c, d⟩ }

/-- A state with residues in IBUF and LEN their number. -/
def withStream (s : State) (r : List Residue) : State :=
  { s.storeBytes (ibufAddr 0) (r.map residueByte) with len := BitVec.ofNat 16 r.length }

/-- A state with a pattern in KPBUF and KP_LEN its length. -/
def withPattern (s : State) (r : List Residue) : State :=
  { s.storeBytes (kpbufAddr 0) (r.map residueByte) with kpLen := BitVec.ofNat 16 r.length }

/-- The first bytes of OBUF as numbers. -/
def obuf (s : State) (n : Nat) : List Nat := (List.range n).map (fun i => (s.byteAt (obufAddr i)).toNat)

/-- Reset with a pending command word. -/
def busyWith (w : Word) : State := State.reset.accept w

/-! ## Well-formedness: each check refuses an ill-formed term -/

theorem test_wellFormed_every_command :
    (Instr.nop.wellFormed && Instr.search.wellFormed && Instr.searchkp.wellFormed) = true := by decide

theorem test_legal_default : Params.default.legal = true := by decide

theorem test_ibufSize_not_multiple_of_4 : (Params.mk 1022 64 64 26 true).legal = false := by decide

theorem test_ibufSize_too_large : (Params.mk 4100 64 64 26 true).legal = false := by decide

theorem test_kpSize_too_large : (Params.mk 1024 256 64 26 true).legal = false := by decide

theorem test_topnMax_zero : (Params.mk 1024 64 0 26 true).legal = false := by decide

theorem test_nlanes_too_many : (Params.mk 1024 64 64 65536 true).legal = false := by decide

/-! ## Decoding, words from R82, R83, R105 -/

theorem test_decode_nop : decode 0b00000000000000000000000000000000#32 = .ok .nop := by decide
theorem test_decode_egcd : decode 0b00000000000000000000000000000001#32 = .ok .egcd := by decide
theorem test_decode_modinv : decode 0b00000000000000000000000000000010#32 = .ok .modinv := by decide
theorem test_decode_det : decode 0b00000000000000000000000000000011#32 = .ok .det := by decide
theorem test_decode_invchk : decode 0b00000000000000000000000000000100#32 = .ok .invchk := by decide
theorem test_decode_invert : decode 0b00000000000000000000000000000101#32 = .ok .invert := by decide
theorem test_decode_encrypt : decode 0b00000000000000000000000000000110#32 = .ok .encrypt := by decide
theorem test_decode_decrypt : decode 0b00000000000000000000000000000111#32 = .ok .decrypt := by decide
theorem test_decode_score : decode 0b00000000000000000000000000001000#32 = .ok .score := by decide
theorem test_decode_search : decode 0b00000000000000000000000000001001#32 = .ok .search := by decide
theorem test_decode_searchkp : decode 0b00000000000000000000000000001010#32 = .ok .searchkp := by decide

/-- V-N2 to V-N5. -/
theorem test_decode_illegal :
    decode 0x0000000B#32 = .error .unassignedOpcode ∧ decode 0x000000FF#32 = .error .unassignedOpcode ∧
    decode 0x00000101#32 = .error .reservedBits ∧ decode 0x80000005#32 = .error .reservedBits := by decide

theorem test_decodeTableWord : decodeTableWord 32 0x0A = some .searchkp ∧ decodeTableWord 8 0x03 = some .det ∧
    decodeTableWord 32 0x0B = none := by decide

/-! ## Commands -/

/-- V-N1: NOP ends with STATUS 0x2. -/
theorem test_nop : (after .nop State.reset).statusWord = 0x2#32 := by decide

/-- V-N2: the first unassigned opcode ends with STATUS 0x106. -/
theorem test_illegal :
    (runEvents [busWrite 0x014 0x0000000B#32, .engine]).statusWord = 0x106#32 := by decide

/-- V-E7: a negative coefficient. -/
theorem test_egcd_negative :
    (after .egcd { State.reset with opa := 240#16, opb := 46#16 }).res1 = 0xFFFFFFF7#32 ∧
    (after .egcd { State.reset with opa := 240#16, opb := 46#16 }).res2 = 0x0000002F#32 := by decide

/-- V-E6: equal operands, where the choice of recursion shows. -/
theorem test_egcd_equal :
    (after .egcd { State.reset with opa := 7#16, opb := 7#16 }).res1 = 1#32 ∧
    (after .egcd { State.reset with opa := 7#16, opb := 7#16 }).res2 = 0#32 := by decide

/-- V-M7: an operand above the modulus. -/
theorem test_modinv : (after .modinv { State.reset with opa := 29#16, opb := 26#16 }).res0 = 9#32 := by decide

/-- V-M6, V-M9: the two errors. -/
theorem test_modinv_errors :
    (after .modinv { State.reset with opa := 13#16, opb := 26#16 }).statusWord = 0x406#32 ∧
    (after .modinv { State.reset with opa := 5#16, opb := 1#16 }).statusWord = 0x306#32 := by decide

/-- V-K8: a negative a·d − b·c wraps to 24. -/
theorem test_det : (after .det (withKey 1 2 3 4)).res0 = 24#32 := by decide

/-- V-K1, V-K7. -/
theorem test_invchk : (after .invchk (withKey 3 3 2 5)).res0 = 1#32 ∧ (after .invchk (withKey 13 0 0 1)).res0 = 0#32 ∧
    (after .invchk (withKey 13 0 0 1)).res1 = 13#32 := by decide

/-- V-K10. -/
theorem test_invert : (after .invert (withKey 5 17 8 3)).res0 = 0x0F020109#32 ∧
    (after .invert (withKey 5 17 8 3)).res1 = 9#32 ∧ (after .invert (withKey 5 17 8 3)).res2 = 3#32 := by decide

/-- V-K4. -/
theorem test_invert_singular : (after .invert (withKey 2 4 1 2)).statusWord = 0x506#32 := by decide

/-- V-C2: HELP to HIAT under (3, 3, 2, 5). -/
theorem test_encrypt : obuf (after .encrypt (withStream (withKey 3 3 2 5) [7, 4, 11, 15])) 4 = [7, 8, 0, 19] := by
  decide +kernel

/-- V-C13: raw bytes 26, 27, 255, 52 are reduced first. -/
theorem test_encrypt_raw_bytes :
    obuf (after .encrypt { (withKey 3 3 2 5).storeBytes 0x1000 [26#8, 27#8, 255#8, 52#8] with len := 4#16 }) 4 =
      [3, 5, 11, 16] := by
  decide +kernel

/-- V-C5: HIAT back to HELP. -/
theorem test_decrypt : obuf (after .decrypt (withStream (withKey 3 3 2 5) [7, 8, 0, 19])) 4 = [7, 4, 11, 15] := by
  decide +kernel

/-- V-C8, V-C11: NOT_INVERTIBLE also for LEN = 0, and BAD_LENGTH outranks it. -/
theorem test_decrypt_errors : (after .decrypt (withKey 2 4 1 2)).statusWord = 0x506#32 ∧
    (after .decrypt { withKey 2 4 1 2 with len := 3#16 }).statusWord = 0x206#32 := by decide

/-- V-SC3: THATHAT counts THAT once. -/
theorem test_score : (after .score (withStream State.reset [19, 7, 0, 19, 7, 0, 19])).res0 = 20#32 := by
  decide +kernel

/-- V-SC17: LEN above IBUF_SIZE. -/
theorem test_score_error : (after .score { State.reset with len := 1025#16 }).statusWord = 0x206#32 := by decide

/-- V-S13: LEN odd, TOPN above TOPN_MAX. -/
theorem test_search_errors : (after .search { State.reset with len := 3#16 }).statusWord = 0x206#32 ∧
    (after .search { State.reset with topn := 65#16 }).statusWord = 0x306#32 := by decide

/-- The state of V-S9: IBUF = AA, KPBUF = AA, TOPN = 3. -/
def vectorS9 : State := { withPattern (withStream State.reset [0, 0]) [0, 0] with topn := 3#16 }

/-- V-S9: the first invertible key, index 702, matches. -/
theorem test_searchkp_match :
    (after .searchkp vectorS9).statusWord = 0xA#32 ∧ (after .searchkp vectorS9).invCount = 1#32 ∧
    (after .searchkp vectorS9).wordAt (rtabAddr 0 0) = 0x00010100#32 ∧
    (after .searchkp vectorS9).wordAt (rtabAddr 0 2) = 702#32 := by decide +kernel

/-- V-S13: KP_LEN = 0 with TOPN = 300 reports BAD_LENGTH. -/
theorem test_searchkp_errors : (after .searchkp { State.reset with topn := 300#16 }).statusWord = 0x206#32 ∧
    (after .searchkp { State.reset with kpLen := 65#16 }).statusWord = 0x206#32 := by decide

/-- R195: ties in ascending index, higher scores first, the list cut at n. -/
theorem test_best : (best 2 [⟨⟨0, 1, 1, 0⟩, 2, 702⟩, ⟨⟨0, 1, 1, 1⟩, 5, 703⟩, ⟨⟨0, 1, 1, 2⟩, 5, 704⟩]).map
    Candidate.idx = [703, 704] := by decide

/-! ## The bus -/

/-- V-N6, V-N7: KEY and OPA are made legal. -/
theorem test_write_key_opa :
    (runEvents [busWrite 0x018 0xFF341A1B#32]).key.pack = 0x15000001#32 ∧
    (runEvents [busWrite 0x01C 0x12345678#32]).opa = 0x5678#16 := by decide

/-- V-N8, V-N9: ID is constant, a reserved offset reads 0. -/
theorem test_read_id_reserved :
    (runEvents [busWrite 0x000 0#32, busRead 0x000]).resp = some (.data 0x48324D45#32) ∧
    (runEvents [busRead 0x048]).resp = some (.data 0#32) := by decide

/-- V-N10: BusError. -/
theorem test_busError :
    (runEvents [.bus ⟨0x010#15, .bits16, .read⟩]).resp = some .busError ∧
    (runEvents [busRead 0x012]).resp = some .busError ∧ (runEvents [busRead 0x5000]).resp = some .busError ∧
    (runEvents [busWrite 0x1400 0#32]).resp = some .busError := by decide

/-- V-N12, with the R93 expansion of `WRS IBUF, 0, "HELP"`. -/
theorem test_write_ibuf :
    hostProgram [.wrs .ibuf 0 [7, 4, 11, 15]] = [busWrite 0x1000 0x0F0B0407#32] ∧
    (runEvents [busWrite 0x1000 0x0F0B0407#32, busRead 0x1000]).resp = some (.data 0x0F0B0407#32) := by decide

/-- V-N13: `irq` after a completion with IE = 1, and its fall at the W1C of DONE. -/
theorem test_irq :
    (runEvents [busWrite 0x00C 1#32, busWrite 0x014 0#32, .engine]).irq = true ∧
    (runEvents [busWrite 0x00C 1#32, busWrite 0x014 0#32, .engine, busWrite 0x010 2#32]).irq = false := by decide

/-- V-N15 (a), with NOP: a KEY write while busy is dropped and sets WERR. -/
theorem test_busy_write :
    (runEvents [busWrite 0x014 0#32, busWrite 0x018 0x05020303#32, .engine]).statusWord = 0x12#32 ∧
    (runEvents [busWrite 0x014 0#32, busWrite 0x018 0x05020303#32, .engine]).key.pack = 0#32 := by decide

/-- V-R3: a soft reset cancels a pending SEARCH. -/
theorem test_soft_reset :
    (runEvents [busWrite 0x014 9#32, busWrite 0x00C 2#32, .engine]).statusWord = 0#32 ∧
    (runEvents [busWrite 0x014 9#32, busWrite 0x00C 2#32]).pending = none := by decide +kernel

/-- U10: a transaction while `rst` is asserted is refused. -/
theorem test_rst_refuses :
    (match step { State.reset with rst := true, events := [busRead 0x000] } with
      | .refused r => decide (r = .transactionDuringReset)
      | .next _ => false
      | .fault _ => false) = true := by decide

/-! ## The lanes -/

/-- R204 on a small slice of the enumeration: indices 702 and 703 in two lanes, out of order. -/
theorem test_lanes : laneSearch [0, 0] 3 none true [[703], [702]] =
    .ranked [⟨⟨0, 1, 1, 0⟩, 2, 702⟩, ⟨⟨0, 1, 1, 1⟩, 2, 703⟩] 2 2 := by decide +kernel

/-! ## Witnesses: a concrete state and operands that meet the hypotheses of each statement, clause by clause -/

/-- The state of the witnesses that need an input: HIAT in IBUF and key (3, 3, 2, 5). -/
def helpState : State := withStream (withKey 3 3 2 5) [7, 8, 0, 19]

theorem witness_DecodeIsTotalAndRejectsReserved :
    (0x00000100#32 : Word).extractLsb' 8 24 ≠ 0#24 ∧
    ((0x0000000B#32 : Word).extractLsb' 8 24 = 0#24 ∧ 0x0B ≤ ((0x0000000B#32 : Word).extractLsb' 0 8).toNat) ∧
    ((0x0000000A#32 : Word).extractLsb' 8 24 = 0#24 ∧ ((0x0000000A#32 : Word).extractLsb' 0 8).toNat < 0x0B) := by
  decide

theorem witness_StepRunsTheDecodedCommand :
    ((busyWith 3#32).events = [] ∧ (busyWith 3#32).pending = some 3#32 ∧ decode 3#32 = .ok .det) ∧
    State.reset.pending = none ∧
    (({ State.reset with events := [busRead 0] } : State).events = [.bus (readTx 0)] ∧ State.reset.rst = false) ∧
    ({ State.reset with events := [.rst true], rst := true } : State).events = [.rst true] := by decide

theorem witness_AcceptanceIsOneEvent : State.reset.pending = none := rfl

theorem witness_ErrorCompletionWritesNothingElse :
    ∃ t, exec .modinv State.reset = .next t ∧ t.errcode ≠ .noError :=
  ⟨_, rfl, by decide⟩

theorem witness_IllegalWordCompletesWithIllegalCmd :
    (busyWith 0x101#32).events = [] ∧ (busyWith 0x101#32).pending = some 0x101#32 ∧
    decode 0x101#32 = .error .reservedBits := by decide

theorem witness_EgcdIsTheEuclideanRecursion : 0 < 1 ∧ 0 < 65535 := by decide

theorem witness_EgcdMeetsItsContract : 65535 ≤ 65535 ∧ 0 ≤ 65535 ∧ 0 < 1 := by decide

theorem witness_ModinvIsTheUniqueInverse : 2 ≤ 26 ∧ modinv 3 26 = some 9 ∧ 9 < 26 ∧ (3 * 9) % 26 = 1 := by decide

theorem witness_ModinvCompletesOrReportsItsError :
    (1#16).toNat < 2 ∧ (2 ≤ (2#16).toNat ∧ Nat.gcd ((0#16).toNat % (2#16).toNat) (2#16).toNat ≠ 1) ∧
    (2 ≤ (2#16).toNat ∧ Nat.gcd ((1#16).toNat % (2#16).toNat) (2#16).toNat = 1) := by decide

theorem witness_InverseKeyIsTheScaledAdjugate :
    Nat.gcd (Key.det ⟨2, 4, 1, 2⟩).val 26 ≠ 1 ∧ Nat.gcd (Key.det ⟨3, 3, 2, 5⟩).val 26 = 1 := by decide

theorem witness_InvertCompletesOrReportsNotInvertible :
    Nat.gcd State.reset.key.det.val 26 ≠ 1 ∧ Nat.gcd (withKey 3 3 2 5).key.det.val 26 = 1 := by decide

theorem witness_InvertLaws : Key.isInvertible ⟨3, 3, 2, 5⟩ = true := by decide

theorem witness_EnumerationIndexIsABijection : 0 < 456976 ∧ 456975 < 456976 := by decide

theorem witness_EncryptCompletesOrReportsBadLength :
    (State.reset.cfg.ibufSize < (1026#16).toNat ∨ (1026#16).toNat % 2 ≠ 0) ∧ (3#16).toNat % 2 ≠ 0 ∧
    ((1024#16).toNat ≤ State.reset.cfg.ibufSize ∧ (1024#16).toNat % 2 = 0 ∧ 2 * 511 + 1 < (1024#16).toNat) ∧
    (helpState.len.toNat ≤ helpState.cfg.ibufSize ∧ helpState.len.toNat % 2 = 0) ∧
    obufAddr 0 - 1 < obufAddr 0 := by decide

theorem witness_DecryptCompletesOrReportsItsError :
    State.reset.cfg.ibufSize < (1025#16).toNat ∧
    (State.reset.len.toNat ≤ State.reset.cfg.ibufSize ∧ State.reset.len.toNat % 2 = 0 ∧
      Nat.gcd State.reset.key.det.val 26 ≠ 1) ∧
    (helpState.len.toNat ≤ helpState.cfg.ibufSize ∧ helpState.len.toNat % 2 = 0 ∧
      Nat.gcd helpState.key.det.val 26 = 1 ∧ 2 * 1 + 1 < helpState.len.toNat) := by decide

theorem witness_TransformsUndoEachOther :
    Key.invert ⟨3, 3, 2, 5⟩ = some ⟨15, 17, 20, 9⟩ ∧ ([7, 4] : List Residue).length % 2 = 0 := by decide

/-- The state that `encrypt` leaves (program P2). -/
def encrypted : State :=
  match exec .encrypt helpState with
  | .next t => t
  | .fault _ => helpState
  | .refused _ => helpState

/-- That ciphertext copied back to IBUF. -/
def copiedBack : State :=
  let t := encrypted
  { helpState with
    mem := t.mem.store 0x1000 ((List.range 4).map (fun i => t.byteAt (obufAddr i))) }

/-- The ciphertext HIOZ of `encrypt` copied back to IBUF is such a state (program P2). -/
theorem witness_EncryptThenDecryptRestoresThePlaintext :
    Nat.gcd helpState.key.det.val 26 = 1 ∧ helpState.len.toNat ≤ helpState.cfg.ibufSize ∧ helpState.len.toNat % 2 = 0 ∧
    ∃ t, exec .encrypt helpState = .next t ∧ ∃ u : State, u.cfg = helpState.cfg ∧ u.key = helpState.key ∧
      u.len = helpState.len ∧ ∀ i, i < helpState.len.toNat → u.byteAt (ibufAddr i) = t.byteAt (obufAddr i) := by
  refine ⟨by decide, by decide, by decide, encrypted, rfl,
    copiedBack, rfl, rfl, rfl, ?_⟩
  have hl : helpState.len.toNat = 4 := by decide
  rw [hl]
  decide +kernel

theorem witness_CountIsLeftmostNonOverlapping :
    ([19, 7] : List Residue) ≠ [] ∧ ([19] : List Residue).length < ([19, 7] : List Residue).length ∧
    ([19, 7] : List Residue).take 2 = [19, 7] ∧ ([7, 19] : List Residue).take 2 ≠ [19, 7] := by decide

theorem witness_ScoreCompletesOrReportsBadLength :
    State.reset.cfg.legal = true ∧ State.reset.cfg.ibufSize < (1025#16).toNat ∧
    (1024#16).toNat ≤ State.reset.cfg.ibufSize := by decide

theorem witness_ScoreProperties : ([8, 13] : List Residue).length ≤ 4096 := by decide

theorem witness_ContainsIsSubstring :
    1 ≤ ([7] : List Residue).length ∧ ([] : List Residue).length < ([7] : List Residue).length := by decide

theorem witness_SearchChecksComeInOrder :
    State.reset.cfg.ibufSize < (1026#16).toNat ∧
    ((1024#16).toNat ≤ State.reset.cfg.ibufSize ∧ (1024#16).toNat % 2 = 0 ∧ State.reset.kpLen.toNat = 0 ∧
      State.reset.cfg.kpSize < (65#16).toNat) ∧
    (State.reset.cfg.topnMax < (65#16).toNat ∧ 1 ≤ (64#16).toNat ∧ (64#16).toNat ≤ State.reset.cfg.kpSize) := by
  decide

theorem witness_SearchCompletesWithTheRankedList :
    vectorS9.cfg.legal = true ∧ vectorS9.len.toNat ≤ vectorS9.cfg.ibufSize ∧ vectorS9.len.toNat % 2 = 0 ∧
    vectorS9.topn.toNat ≤ vectorS9.cfg.topnMax ∧
    (State.reset.cfg.ibufSize < (1025#16).toNat ∧ State.reset.cfg.topnMax < (65#16).toNat) := by decide

theorem witness_SearchCountsAllInvertibleKeys :
    ∃ t, exec .search State.reset = .next t ∧ t.errcode = .noError := ⟨_, rfl, rfl⟩

theorem witness_SearchkpReturnsTheLowestMatch :
    vectorS9.cfg.legal = true ∧ vectorS9.cfg.kpScoresNonmatch = true ∧ vectorS9.len.toNat ≤ vectorS9.cfg.ibufSize ∧
    vectorS9.len.toNat % 2 = 0 ∧ 1 ≤ vectorS9.kpLen.toNat ∧ vectorS9.kpLen.toNat ≤ vectorS9.cfg.kpSize ∧
    vectorS9.topn.toNat ≤ vectorS9.cfg.topnMax ∧ 702 < 456976 ∧
    matchesAt vectorS9.stream vectorS9.pattern 702 ∧ ∀ j, j < 702 → ¬ matchesAt vectorS9.stream vectorS9.pattern j := by
  refine ⟨by decide, by decide, by decide, by decide, by decide, by decide, by decide, by decide,
    ⟨⟨0, 1, 1, 0⟩, by decide +kernel, by decide +kernel⟩, ?_⟩
  rintro j hj ⟨k, hk, -⟩
  have h : ∀ j < 702, (keyAt j).invert = none := by decide +kernel
  simp [h j hj] at hk

/-- Reset with LEN = 0 and a pattern of one residue: no plaintext contains it (V-S12). -/
def vectorS12 : State := withPattern State.reset [0]

theorem vectorS12_no_match (i : Nat) : ¬ matchesAt vectorS12.stream vectorS12.pattern i := by
  rintro ⟨k, -, h⟩
  have hs : vectorS12.stream = [] := by decide +kernel
  have hp : vectorS12.pattern = [0] := by decide +kernel
  rw [hs, hp] at h
  simp [Key.apply, contains] at h

theorem witness_SearchkpWithoutMatchIsSearch :
    vectorS12.cfg.kpScoresNonmatch = true ∧ 1 ≤ vectorS12.kpLen.toNat ∧ vectorS12.kpLen.toNat ≤ vectorS12.cfg.kpSize ∧
    ∀ i, i < 456976 → ¬ matchesAt vectorS12.stream vectorS12.pattern i :=
  ⟨by decide, by decide, by decide, fun i _ => vectorS12_no_match i⟩

/-- V-S12 with U7's other reading. -/
def vectorS12Unscored : State :=
  { vectorS12 with cfg := { Params.default with kpScoresNonmatch := false } }

theorem witness_SearchkpWithoutMatchUnscored :
    vectorS12Unscored.cfg.legal = true ∧ vectorS12Unscored.cfg.kpScoresNonmatch = false ∧
    vectorS12Unscored.len.toNat ≤ vectorS12Unscored.cfg.ibufSize ∧ vectorS12Unscored.len.toNat % 2 = 0 ∧
    1 ≤ vectorS12Unscored.kpLen.toNat ∧ vectorS12Unscored.kpLen.toNat ≤ vectorS12Unscored.cfg.kpSize ∧
    vectorS12Unscored.topn.toNat ≤ vectorS12Unscored.cfg.topnMax ∧
    ∀ i, i < 456976 → ¬ matchesAt vectorS12Unscored.stream vectorS12Unscored.pattern i :=
  ⟨by decide, by decide, by decide, by decide, by decide, by decide, by decide, fun i _ => vectorS12_no_match i⟩

theorem witness_LanesAgreeWithTheSequentialSearch :
    ([List.range 456976, []] : List (List Nat)).flatten.Nodup ∧
    (∀ j ∈ ([List.range 456976, []] : List (List Nat)).flatten, j < 456976) ∧
    ∀ j, j < 456976 → j ∉ ([List.range 456976, []] : List (List Nat)).flatten →
      (keyAt j).isInvertible = false ∨ ∃ i ∈ ([List.range 456976, []] : List (List Nat)).flatten,
        i < j ∧ ∃ q, (none : Option (List Residue)) = some q ∧ matchesAt [] q i := by
  have h : ([List.range 456976, []] : List (List Nat)).flatten = List.range 456976 := by
    rw [List.flatten_cons, List.flatten_cons, List.flatten_nil, List.append_nil, List.append_nil]
  rw [h]
  exact ⟨List.nodup_range, fun j hj => List.mem_range.1 hj, fun j hj hn => absurd (List.mem_range.2 hj) hn⟩

/-- A search of "AA" for "AA" (V-S9) in two lanes: the first stops after the match at 702, and the other takes a
singular index below it; every other index is left out. -/
theorem witness_LanesAgreeWithTheSequentialSearch_partial :
    ([[702, 703], [0]] : List (List Nat)).flatten.Nodup ∧
    (∀ j ∈ ([[702, 703], [0]] : List (List Nat)).flatten, j < 456976) ∧
    ∀ j, j < 456976 → j ∉ ([[702, 703], [0]] : List (List Nat)).flatten →
      (keyAt j).isInvertible = false ∨ ∃ i ∈ ([[702, 703], [0]] : List (List Nat)).flatten,
        i < j ∧ ∃ q, some [0, 0] = some q ∧ matchesAt [0, 0] q i := by
  refine ⟨by decide, by decide, fun j _ _ => ?_⟩
  by_cases h : 702 < j
  · exact .inr ⟨702, by decide, h, [0, 0], rfl, ⟨0, 1, 1, 0⟩, by decide +kernel, by decide +kernel⟩
  · have hs : ∀ j < 702, (keyAt j).isInvertible = false := by decide +kernel
    by_cases h2 : j = 702
    · subst h2; rename_i hn; exact absurd (by decide) hn
    · exact .inl (hs j (by omega))

theorem witness_RankingIsTheUniqueOrder :
    (([⟨⟨0, 1, 1, 0⟩, 2, 702⟩, ⟨⟨0, 1, 1, 1⟩, 2, 703⟩] : List Candidate).map Candidate.idx).Nodup ∧
    ([⟨⟨0, 1, 1, 0⟩, 2, 702⟩, ⟨⟨0, 1, 1, 1⟩, 2, 703⟩] : List Candidate).Pairwise
      (fun x y => y.score < x.score ∨ (x.score = y.score ∧ x.idx < y.idx)) := by decide

theorem witness_BusErrorChangesNothing :
    (⟨0#15, .bits8, .read⟩ : Transaction).size ≠ .bits32 ∧ (readTx 2).off.toNat % 4 ≠ 0 := by decide

theorem witness_AddressMap :
    State.reset.cfg.legal = true ∧ (4 * 0x12 < 0x1000 ∧ ∀ r : Reg, r.offset ≠ 4 * 0x12) ∧
    4 * 255 < State.reset.cfg.ibufSize ∧ 4 * 15 < State.reset.cfg.kpSize ∧ 4 * 255 < 16 * State.reset.cfg.topnMax ∧
    State.reset.pending = none ∧ (0x3000, 64) ∈ hostBuffers State.reset.cfg ∧ 4 * 15 < ((0x3000, 64) : Nat × Nat).2 ∧
    (0x1000 + State.reset.cfg.ibufSize ≤ 0x1400 ∧ 0x2000 + State.reset.cfg.ibufSize ≤ 0x2FFC ∧
      0x3000 + State.reset.cfg.kpSize ≤ 0x3040 ∧ 0x4000 + 16 * State.reset.cfg.topnMax ≤ 0x4400 ∧
      0x5000 ≤ 0x7FFC ∧ 0x7FFC < 0x8000 ∧ 0x7FFC % 4 = 0) := by
  refine ⟨by decide, ⟨by decide, ?_⟩, by decide, by decide, by decide, rfl, by decide, by decide,
    by decide⟩
  intro r; cases r <;> decide

theorem witness_BufferWordsAreLittleEndian :
    State.reset.cfg.legal = true ∧ State.reset.pending = none ∧
    (0x3000, 64) ∈ hostBuffers State.reset.cfg ∧ 4 * 15 < ((0x3000, 64) : Nat × Nat).2 := by decide

theorem witness_KeyWritesAreReducedMod26 : State.reset.pending = none := rfl

theorem witness_OperandRegistersKeepTheLowHalf : State.reset.pending = none := rfl

theorem witness_CtrlFieldsAndWrites : (1#32 : Word).getLsbD 1 = false ∧ (2#32 : Word).getLsbD 1 = true := by decide

theorem witness_IdentificationRegistersAreConstant : State.reset.cfg.legal = true := by decide

theorem witness_ReadsHaveNoSideEffect :
    (readTx 0x024).op = .read ∧ State.reset.pending = none ∧
    (readTx 0x024).target State.reset.cfg = some (.reg .res0) := by decide

theorem witness_WritesWhileBusyAreDropped :
    (busyWith 9#32).cfg.legal = true ∧ (busyWith 9#32).pending = some 9#32 ∧ (1#32 : Word).getLsbD 1 = false ∧
    (2#32 : Word).getLsbD 1 = true ∧ 4 * 15 < (busyWith 9#32).cfg.kpSize ∧ (0x048 ≤ 4 * 0x3FF ∧ 4 * 0x3FF < 0x1000) := by
  decide

theorem witness_ReadsWhileBusyRevealNoResult_stored :
    4 * 255 < (busyWith 6#32).cfg.ibufSize ∧ ({ busyWith 6#32 with len := 1020#16 } : State).len.toNat ≤ 4 * 255 ∧
    4 * 15 < (busyWith 6#32).cfg.kpSize ∧ 4 * 255 < 16 * (busyWith 6#32).cfg.topnMax ∧
    4 * 255 < ({ busyWith 6#32 with len := 1024#16 } : State).len.toNat := by decide

/-- W3 of an RTAB entry reads 0 before any search (R45; 93 U2). -/
theorem test_rtab_w3_reads_zero_from_reset :
    (State.reset.transact (readTx 0x400C)).resp = some (.data 0#32) ∧ State.reset.wordAt (rtabAddr 0 3) = 0#32 := by
  decide

/-- W3 reads 0 after a search is cancelled, too. -/
theorem test_rtab_w3_reads_zero_after_cancel :
    (((busyWith 9#32).transact (writeTx 0x00C 2#32)).transact (readTx 0x43FC)).resp = some (.data 0#32) := by
  decide +kernel

/-- A pending ENCRYPT with LEN = 2, and another content of OBUF[0 … 2) and of RTAB. -/
theorem witness_ReadsWhileBusyRevealNoResult :
    (busyWith 6#32).cfg.legal = true ∧ ({ busyWith 6#32 with len := 2#16 } : State).pending = some 6#32 ∧
    (readTx 0x2000).op = .read ∧
    ∀ a, (0x1000 ≤ a ∧ a < 0x2000) ∨ (0x3000 ≤ a ∧ a < 0x4000) ∨
        (0x2000 ≤ a ∧ a < 0x3000 ∧ ({ busyWith 6#32 with len := 2#16 } : State).len.toNat ≤ a - 0x2000) →
      Memory.read? [(0x2001, 5#8), (0x4000, 7#8)] a = ({ busyWith 6#32 with len := 2#16 } : State).mem.read? a := by
  refine ⟨by decide, rfl, rfl, ?_⟩
  intro a h
  have h1 : ¬ 0x2001 = a := by
    rintro rfl
    rcases h with h | h | ⟨-, -, h⟩
    · omega
    · omega
    · exact absurd h (by decide)
  have h2 : ¬ 0x4000 = a := by omega
  rw [Laws.read?_cons, Laws.read?_cons, if_neg h1, if_neg h2]; rfl

theorem witness_IrqIsTheLevelOfIeAndDone :
    (∃ t, exec .nop State.reset = .next t) ∧ State.reset.pending = none ∧ (2#32 : Word).getLsbD 1 = true ∧
    (0#32 : Word).getLsbD 0 = false ∧ ((1#32 : Word).getLsbD 0 = true ∧ (1#32 : Word).getLsbD 1 = false ∧
      ∃ t, exec .nop State.reset = .next t ∧ t.done = true) :=
  ⟨⟨_, rfl⟩, rfl, by decide, by decide, by decide, by decide, _, rfl, rfl⟩

theorem witness_PowerOnResetClearsTheMachine :
    (∃ t, t = State.reset.driveRst true) ∧ ({ State.reset with rst := true } : State).rst = true := ⟨⟨_, rfl⟩, rfl⟩

theorem witness_SoftResetCancelsAndKeepsInputs :
    (2#32 : Word).getLsbD 1 = true ∧ State.reset.pending = none ∧ (busyWith 0xA#32).pending = some 0xA#32 ∧
    ¬ (((0xA#32 : Word) = 0x6#32 ∨ (0xA#32 : Word) = 0x7#32 ∨ (0xA#32 : Word) = 0xA#32) ∧ 0x2000 ≤ 0x1000 ∧
      0x1000 < 0x2000 + (busyWith 0xA#32).len.toNat ∧ 0x1000 < 0x2000 + (busyWith 0xA#32).cfg.ibufSize) := by decide

/-- The invariant holds of a busy state that a step takes on. -/
theorem witness_StepKeepsTheInvariant : (busyWith 3#32).Inv ∧ ∃ t, step (busyWith 3#32) = .next t := by
  refine ⟨?_, _, rfl⟩
  exact
    { cfgLegal := by decide
      memWf := ⟨List.Pairwise.nil, fun x hx => absurd hx List.not_mem_nil⟩
      memInBuffers := fun x hx => absurd hx List.not_mem_nil
      pendingClear := by
        intro w hw
        have h : some 3#32 = some w := hw
        injection h with h
        exact ⟨h, rfl, rfl, rfl⟩
      matchedSingle := fun h => absurd h (by decide)
      nresultsFits := by decide
      countsOrdered := by decide
      inReset := fun h => absurd h (by decide) }

theorem witness_PendingCommandsComplete :
    respectsReset State.reset.rst [busWrite 0x014 3#32, .rst true, .rst false, busRead 0x010] = true := by decide

theorem witness_RegistersHaveOneWriter :
    (∃ t, step (busyWith 3#32) = .next t) ∧ (∀ x es, (busyWith 3#32).events ≠ .bus x :: es) ∧
    (∀ l es, (busyWith 3#32).events ≠ .rst l :: es) ∧
    (∃ t, step { State.reset with events := [busWrite 0x00C 1#32] } = .next t) ∧
    (∀ w, (writeTx 0x00C 1#32).op = .write w → w.getLsbD 1 = false) := by
  refine ⟨⟨_, rfl⟩, ?_, ?_, ⟨_, rfl⟩, ?_⟩
  · intro x es h; cases h
  · intro l es h; cases h
  · intro w h; injection h with h; subst h; decide

theorem witness_FlagsAreSetOnlyAsStated :
    (∃ t, step (busyWith 3#32) = .next t ∧ (busyWith 3#32).done = false ∧ t.done = true) ∧
    (∃ t, step { busyWith 3#32 with events := [busWrite 0x018 0#32] } = .next t ∧ (busyWith 3#32).werr = false ∧
      t.werr = true) ∧
    (∃ t, step (vectorS9.accept 0xA#32) = .next t ∧ (vectorS9.accept 0xA#32).matched = false ∧ t.matched = true) := by
  refine ⟨⟨_, rfl, rfl, rfl⟩, ⟨_, rfl, rfl, by decide⟩, ⟨_, rfl, rfl, by decide +kernel⟩⟩

end Sys2Proof.Tests
end

section
/-! Residues as numbers and as bytes, the bytes of a word, and the packing and the enumeration of keys
(spec/00_scope.md R12 to R15). -/

namespace Sys2Proof.Laws

open Sys2Proof.Machine

/-! ## Residues -/

@[simp] theorem residueOfNat_val (n : Nat) : (residueOfNat n).val = n % 26 := rfl

theorem residueOfNat_eq_iff (n : Nat) (r : Residue) : residueOfNat n = r ↔ n % 26 = r.val := Fin.ext_iff

@[simp] theorem res_val (b : Byte) : (res b).val = b.toNat % 26 := rfl

/-- A byte holds a residue without loss (R44). -/
@[simp] theorem residueByte_toNat (r : Residue) : (residueByte r).toNat = r.val := by
  have h : r.val < 2 ^ 8 := by omega
  rw [residueByte, BitVec.toNat_ofNat, Nat.mod_eq_of_lt h]

@[simp] theorem res_residueByte (r : Residue) : res (residueByte r) = r := by
  rw [res, residueOfNat_eq_iff, residueByte_toNat, Nat.mod_eq_of_lt r.isLt]

/-! ## The bytes of a word put together from bytes (R64) -/

section WordOfBytes

variable (b0 b1 b2 b3 : Byte)

@[simp] theorem wordOfBytes_byte0 : (wordOfBytes b0 b1 b2 b3).extractLsb' 0 8 = b0 :=
  BitVec.extractLsb'_append_eq_right

@[simp] theorem wordOfBytes_byte1 : (wordOfBytes b0 b1 b2 b3).extractLsb' 8 8 = b1 := by
  rw [wordOfBytes, BitVec.extractLsb'_append_eq_of_le (by decide)]
  exact BitVec.extractLsb'_append_eq_right

@[simp] theorem wordOfBytes_byte2 : (wordOfBytes b0 b1 b2 b3).extractLsb' 16 8 = b2 := by
  rw [wordOfBytes, BitVec.extractLsb'_append_eq_of_le (by decide), BitVec.extractLsb'_append_eq_of_le (by decide)]
  exact BitVec.extractLsb'_append_eq_right

@[simp] theorem wordOfBytes_byte3 : (wordOfBytes b0 b1 b2 b3).extractLsb' 24 8 = b3 := by
  rw [wordOfBytes, BitVec.extractLsb'_append_eq_of_le (by decide), BitVec.extractLsb'_append_eq_of_le (by decide)]
  exact BitVec.extractLsb'_append_eq_left

end WordOfBytes

/-! ## Packed keys (R14) -/

section Pack

variable (k : Key)

@[simp] theorem pack_byte0 : k.pack.extractLsb' 0 8 = residueByte k.a := wordOfBytes_byte0 ..
@[simp] theorem pack_byte1 : k.pack.extractLsb' 8 8 = residueByte k.b := wordOfBytes_byte1 ..
@[simp] theorem pack_byte2 : k.pack.extractLsb' 16 8 = residueByte k.c := wordOfBytes_byte2 ..
@[simp] theorem pack_byte3 : k.pack.extractLsb' 24 8 = residueByte k.d := wordOfBytes_byte3 ..

@[simp] theorem unpack_pack : Key.unpack k.pack = k := by
  rw [Key.unpack, pack_byte0, pack_byte1, pack_byte2, pack_byte3]
  simp only [res_residueByte]

end Pack

/-! ## The enumeration of the keys (R15) -/

theorem index_lt_keySpace (k : Key) : k.index < keySpace := by
  rw [Key.index, keySpace]; omega

/-- The entries of a key are the digits of its index to the base 26. -/
theorem keyAt_index (k : Key) : keyAt k.index = k := by
  have ha : k.index / 17576 % 26 = k.a.val := by rw [Key.index]; omega
  have hb : k.index / 676 % 26 = k.b.val := by rw [Key.index]; omega
  have hc : k.index / 26 % 26 = k.c.val := by rw [Key.index]; omega
  have hd : k.index % 26 = k.d.val := by rw [Key.index]; omega
  rw [keyAt, (residueOfNat_eq_iff ..).2 ha, (residueOfNat_eq_iff ..).2 hb, (residueOfNat_eq_iff ..).2 hc,
    (residueOfNat_eq_iff ..).2 hd]

@[simp] theorem keyAt_a_val (i : Nat) : (keyAt i).a.val = i / 17576 % 26 := rfl
@[simp] theorem keyAt_b_val (i : Nat) : (keyAt i).b.val = i / 676 % 26 := rfl
@[simp] theorem keyAt_c_val (i : Nat) : (keyAt i).c.val = i / 26 % 26 := rfl
@[simp] theorem keyAt_d_val (i : Nat) : (keyAt i).d.val = i % 26 := rfl

/-- Below 26^4 the first entry is the quotient itself: nothing is reduced. -/
theorem keyAt_a_val_of_lt {i : Nat} (h : i < keySpace) : (keyAt i).a.val = i / 17576 := by
  rw [keySpace] at h
  rw [keyAt_a_val, Nat.mod_eq_of_lt (by omega)]

theorem index_keyAt {i : Nat} (h : i < keySpace) : (keyAt i).index = i := by
  rw [Key.index, keyAt_a_val_of_lt h, keyAt_b_val, keyAt_c_val, keyAt_d_val]
  omega

end Sys2Proof.Laws
end

section
/-! The obligations of spec/00_scope.md on keys: their enumeration index (R15), their packing and their map (R14). -/

namespace Sys2Proof.Proofs

open Sys2Proof.Machine Sys2Proof.Laws

/-- Settles O23: the index and key(i) are the two directions of writing a number below 26^4 to the base 26. -/
theorem enumerationIndexIsABijection : Obligations.EnumerationIndexIsABijection :=
  ⟨fun k => ⟨rfl, index_lt_keySpace k, keyAt_index k⟩,
    fun i h => ⟨index_keyAt h, keyAt_a_val_of_lt h, keyAt_b_val i, keyAt_c_val i, keyAt_d_val i⟩⟩

/-- Settles O24: each byte of a packed key is the byte of its entry, and a byte keeps a residue. -/
theorem keyPackingAndMap : Obligations.KeyPackingAndMap := by
  refine ⟨fun k => ⟨?_, ?_, ?_, ?_, unpack_pack k⟩, fun w => ⟨res_val _, res_val _, res_val _, res_val _⟩,
    fun k x y => ⟨residueOfNat_val _, residueOfNat_val _⟩⟩
  · rw [pack_byte0, residueByte_toNat]
  · rw [pack_byte1, residueByte_toNat]
  · rw [pack_byte2, residueByte_toNat]
  · rw [pack_byte3, residueByte_toNat]

end Sys2Proof.Proofs
end

section
/-! Completions: a command word from its fields (spec/30_encoding.md R82, R83), and what the completion of a command and
a turn of the engine can do (spec/40_control.md R102). -/

namespace Sys2Proof.Laws

open Sys2Proof Sys2Proof.Machine

/-! ## A command word from its fields -/

theorem toNat_of_rsvField_zero {w : Word} (h : rsvField w = 0#24) : w.toNat = (opField w).toNat := by
  have hrsv : w.toNat / 256 % 2 ^ 24 = 0 := by
    simpa [rsvField, BitVec.extractLsb'_toNat, Nat.shiftRight_eq_div_pow] using congrArg BitVec.toNat h
  rw [opField, BitVec.extractLsb'_toNat, Nat.shiftRight_zero]
  omega

theorem opcode_of_decodeOp {op : Byte} {i : Instr} (h : decodeOp op = .ok i) : (opcode i).toNat = op.toNat := by
  unfold decodeOp at h
  split at h <;> cases h <;> exact Eq.symm ‹_›

/-- A word that decodes to a command is the command's encoding (R82, R87). -/
theorem encode_of_decode {w : Word} {i : Instr} (h : decode w = .ok i) : w = encode i := by
  unfold decode at h
  split at h
  next => cases h
  next hrsv =>
    apply BitVec.eq_of_toNat_eq
    rw [encode, BitVec.zeroExtend, BitVec.toNat_setWidth_of_le (by decide), opcode_of_decodeOp h,
      toNat_of_rsvField_zero (not_not.1 hrsv)]

/-! ## What a completion can do -/

/-- The effects of a command on a state, before its completion: they write results, counters, MATCH and buffers
only. -/
def WritesResultsOnly (s u : State) : Prop :=
  u = { s with
    matched := u.matched, res0 := u.res0, res1 := u.res1, res2 := u.res2, invCount := u.invCount,
    retained := u.retained, nresults := u.nresults, mem := u.mem }

theorem writesResultsOnly_writeResult (s : State) (r : SearchResult) : WritesResultsOnly s (s.writeResult r) := by
  cases r <;> rfl

/-- How a command's completion from `s` can end: an error code and no other effect (R222), or success after effects
on results only, with MATCH as it was unless the command is one that may set it (R102, R103). -/
inductive Completes (mayMatch : Prop) (s : State) : Host.Outcome State Fault Refusal → Prop
  | error (c : ErrCode) (hc : c ≠ .noError) : Completes mayMatch s (.next (s.finish c))
  | success (u : State) (hu : WritesResultsOnly s u) (hm : u.matched = s.matched ∨ mayMatch) :
      Completes mayMatch s (.next (u.finish .noError))

theorem Completes.imp {p q : Prop} {s : State} {o : Host.Outcome State Fault Refusal} (h : Completes p s o)
    (hpq : p → q) : Completes q s o := by
  cases h with
  | error c hc => exact .error c hc
  | success u hu hm => exact .success u hu (hm.imp_right hpq)

/-- A command's check comes before its effects: it raises its error, or the rest of the command runs. -/
theorem Completes.ite_raise {p b : Prop} [Decidable b] {s : State} {c : ErrCode}
    {o : Host.Outcome State Fault Refusal} (hc : c ≠ .noError) (h : Completes p s o) :
    Completes p s (if b then raise c s else o) := by
  split
  · exact .error c hc
  · exact h

/-- Without a pattern no key ends the search early (R190). -/
theorem searchKeys_without_pattern (st : List Residue) (n : Nat) (scoring : Bool) :
    ∃ best inv retained, searchKeys st n none scoring = .ranked best inv retained := by
  refine ⟨_, _, _, searchKeys_ranked st n none scoring fun j _ => Bool.eq_false_iff.2 fun hit => ?_⟩
  obtain ⟨q, hq, -⟩ := (evaluate_isHit_iff st none scoring j).1 hit
  cases hq

/-- Every command completes on every state, and only SEARCHKP may set MATCH (R29, R102). -/
theorem exec_completes (i : Instr) (s : State) : Completes (i = .searchkp) s (exec i s) := by
  cases i with
  | nop => exact .success s rfl (.inl rfl)
  | egcd | det | invchk => exact .success _ rfl (.inl rfl)
  | modinv =>
    refine .ite_raise (by decide) ?_
    split
    · exact .error _ (by decide)
    · exact .success _ rfl (.inl rfl)
  | invert =>
    rw [exec, execInvert]
    split
    · exact .success _ rfl (.inl rfl)
    · exact .error _ (by decide)
  | encrypt => exact .ite_raise (by decide) (.success _ rfl (.inl rfl))
  | decrypt =>
    refine .ite_raise (by decide) ?_
    split
    · exact .error _ (by decide)
    · exact .success _ rfl (.inl rfl)
  | score => exact .ite_raise (by decide) (.success _ rfl (.inl rfl))
  | search =>
    refine .ite_raise (by decide) (.ite_raise (by decide) (.success _ (writesResultsOnly_writeResult s _) (.inl ?_)))
    obtain ⟨best, inv, retained, h⟩ := searchKeys_without_pattern s.stream s.resultLimit true
    rw [h, writeResult_ranked_matched]
  | searchkp =>
    exact .ite_raise (by decide) (.ite_raise (by decide) (.ite_raise (by decide)
      (.success _ (writesResultsOnly_writeResult s _) (.inr rfl))))

/-- Every command word completes, an illegal one too (R105), and only SEARCHKP's may set MATCH. -/
theorem complete_completes (w : Word) (s : State) : Completes (w = encode .searchkp) s (complete w s) := by
  cases hd : decode w with
  | ok i =>
    rw [complete_of_decoded s w i hd]
    exact (exec_completes i s).imp fun hi => hi ▸ encode_of_decode hd
  | error e =>
    rw [complete_of_illegal s w e hd]
    exact .error _ (by decide)

section Completed

variable {p : Prop} {s t : State}

/-- What a completion leaves unchanged: parameters, IE, WERR, CMD, the operands and the schedule (R102, R103). -/
theorem Completes.frame (h : Completes p s (.next t)) : t = { s with
    matched := t.matched, res0 := t.res0, res1 := t.res1, res2 := t.res2, invCount := t.invCount,
    retained := t.retained, nresults := t.nresults, mem := t.mem, errcode := t.errcode, done := true,
    pending := none } := by
  cases h with
  | error c hc => rfl
  | success u hu hm => exact congrArg (State.finish · .noError) hu

/-- MATCH after a completion. -/
theorem Completes.matched (h : Completes p s (.next t)) : t.matched = s.matched ∨ (p ∧ t.errcode = .noError) := by
  cases h with
  | error c hc => exact .inl rfl
  | success u hu hm => exact hm.imp_right fun hp => ⟨hp, rfl⟩

/-- All that a turn of the engine can do: nothing without a pending command, and else its completion. -/
theorem engineTurn_next_cases (h : engineTurn s = .next t) :
    (s.pending = none ∧ t = s) ∨
    ∃ w, s.pending = some w ∧ Completes (w = encode .searchkp) s (.next t) := by
  cases hp : s.pending with
  | none =>
    rw [engineTurn_of_idle s hp] at h
    injection h with h
    exact .inl ⟨rfl, h.symm⟩
  | some w =>
    rw [engineTurn_of_pending s w hp] at h
    exact .inr ⟨w, rfl, h ▸ complete_completes w s⟩

/-- What a turn of the engine leaves unchanged. -/
theorem engineTurn_frame (h : engineTurn s = .next t) : t = { s with
    matched := t.matched, res0 := t.res0, res1 := t.res1, res2 := t.res2, invCount := t.invCount,
    retained := t.retained, nresults := t.nresults, mem := t.mem, errcode := t.errcode, done := t.done,
    pending := t.pending } := by
  obtain ⟨-, rfl⟩ | ⟨w, -, hc⟩ := engineTurn_next_cases h
  · rfl
  · rw [hc.frame]

end Completed

end Sys2Proof.Laws
end

section
/-! The registers through the port: each at its own offset (spec/10_state.md R43), the fields of STATUS and CTRL (R24,
R25), and what a host transaction and a change of `rst` can do to the registers. -/

namespace Sys2Proof.Laws

open Sys2Proof Sys2Proof.Machine

/-! ## A register at its offset -/

/-- Each register is selected by its own offset (R43). -/
theorem targetAt_offset (p : Params) (r : Reg) : targetAt p r.offset = some (.reg r) := by
  cases r <;> rfl

theorem offset_aligned (r : Reg) : r.offset < 0x8000 ∧ r.offset % 4 = 0 := by
  cases r <;> decide

/-- A host read of a register while nothing is pending, or at all times of no volatile output (R67, R262). -/
theorem transact_readTx_reg (s : State) (r : Reg) (h : s.pending = none ∨ r.volatile = false) :
    s.transact (readTx r.offset) = { s with resp := some (.data (s.regWord r)) } := by
  obtain ⟨hlt, hal⟩ := offset_aligned r
  rw [transact_read s _ (.reg r) (by rw [target_readTx _ _ hlt hal, targetAt_offset]) rfl]
  exact hostRead_stored s (.reg r) (h.imp_left (busy_eq_false_iff s).2)

/-- A host write of a register is answered ok (R60). -/
theorem transact_writeTx_reg (s : State) (r : Reg) (w : Word) :
    s.transact (writeTx r.offset w) = (s.writeReg w r).respond .ok := by
  obtain ⟨hlt, hal⟩ := offset_aligned r
  exact transact_write s _ (.reg r) w (by rw [target_writeTx _ _ _ hlt hal, targetAt_offset]) rfl

/-- A host write that only a pending command keeps from taking effect (R260), with nothing pending. -/
theorem transact_writeTx_idle {s t : State} {r : Reg} {w : Word} (hidle : s.pending = none)
    (h : s.writeReg w r = s.unlessBusy t) : s.transact (writeTx r.offset w) = t.respond .ok := by
  rw [transact_writeTx_reg, h, unlessBusy_of_idle _ _ ((busy_eq_false_iff s).2 hidle)]

theorem writeCtrl_of_srst (s : State) {w : Word} (h : w.getLsbD 1 = true) : s.writeCtrl w = s.softReset :=
  if_pos h

theorem writeCtrl_of_no_srst (s : State) {w : Word} (h : w.getLsbD 1 = false) :
    s.writeCtrl w = { s with ie := w.getLsbD 0 } :=
  if_neg (by rw [h]; decide)

theorem transact_writeTx_ctrl (s : State) (w : Word) :
    s.transact (writeTx 0x00C w) = (s.writeCtrl w).respond .ok :=
  transact_writeTx_reg s .ctrl w

theorem transact_writeTx_status (s : State) (w : Word) :
    s.transact (writeTx 0x010 w) = (s.writeStatus w).respond .ok :=
  transact_writeTx_reg s .status w

/-- Acceptance of a command word is one write (R100). -/
theorem transact_writeTx_cmd_idle (s : State) (w : Word) (hidle : s.pending = none) :
    s.transact (writeTx 0x014 w) = (s.accept w).respond .ok :=
  transact_writeTx_idle (r := .cmd) hidle rfl

/-! ## The words of STATUS and CTRL -/

section FlagWords

variable {n : Nat} (v : BitVec n) (b : Bool)

/-- The flag appended last is bit 0. -/
theorem getLsbD_append_ofBool_zero : (v ++ BitVec.ofBool b).getLsbD 0 = b := by
  simp [BitVec.getElem_append]

/-- The other bits stand one place up. -/
theorem getLsbD_append_ofBool_succ (i : Nat) : (v ++ BitVec.ofBool b).getLsbD (i + 1) = v.getLsbD i := by
  simp [BitVec.getLsbD_append]

end FlagWords

section StatusFields

variable (s : State)

/-- ERR is read off ERRCODE (R28). -/
theorem err_iff : s.err = true ↔ s.errcode ≠ .noError := by
  rw [State.err, decide_eq_true_iff]
  cases s.errcode <;> decide

theorem statusWord_busy : s.statusWord.getLsbD 0 = s.pending.isSome :=
  getLsbD_append_ofBool_zero _ s.busy

theorem statusWord_done : s.statusWord.getLsbD 1 = s.done := by
  rw [State.statusWord, getLsbD_append_ofBool_succ, getLsbD_append_ofBool_zero]

theorem statusWord_err : s.statusWord.getLsbD 2 = s.err := by
  rw [State.statusWord, getLsbD_append_ofBool_succ, getLsbD_append_ofBool_succ, getLsbD_append_ofBool_zero]

theorem statusWord_matched : s.statusWord.getLsbD 3 = s.matched := by
  rw [State.statusWord, getLsbD_append_ofBool_succ, getLsbD_append_ofBool_succ, getLsbD_append_ofBool_succ,
    getLsbD_append_ofBool_zero]

theorem statusWord_werr : s.statusWord.getLsbD 4 = s.werr := by
  rw [State.statusWord, getLsbD_append_ofBool_succ, getLsbD_append_ofBool_succ, getLsbD_append_ofBool_succ,
    getLsbD_append_ofBool_succ, getLsbD_append_ofBool_zero]

theorem statusWord_reserved_low : s.statusWord.extractLsb' 5 3 = 0#3 := by
  simp (disch := decide) only [State.statusWord, BitVec.extractLsb'_append_eq_of_le]
  exact BitVec.extractLsb'_append_eq_right

theorem statusWord_errcode : s.statusWord.extractLsb' 8 4 = s.errcode.code := by
  simp (disch := decide) only [State.statusWord, BitVec.extractLsb'_append_eq_of_le]
  exact BitVec.extractLsb'_append_eq_right

theorem statusWord_reserved_high : s.statusWord.extractLsb' 12 20 = 0#20 := by
  simp (disch := decide) only [State.statusWord, BitVec.extractLsb'_append_eq_of_le]
  rfl

theorem ctrlWord_ie : s.ctrlWord.getLsbD 0 = s.ie := getLsbD_append_ofBool_zero _ s.ie

theorem ctrlWord_reserved : s.ctrlWord.extractLsb' 1 31 = 0#31 := BitVec.extractLsb'_append_eq_left

/-- The line IE ∧ DONE is 0 where either is (R47). -/
theorem irq_eq_false_of (h : s.ie = false ∨ s.done = false) : s.irq = false := by
  rwa [State.irq, Bool.and_eq_false_iff]

end StatusFields

/-! ## What a host transaction can do -/

/-- DONE, MATCH and WERR are set in `t` only where they were in `s` (R27, R29, R30). -/
structure RaisesNoFlag (s t : State) : Prop where
  done_of_done : t.done = true → s.done = true
  matched_of_matched : t.matched = true → s.matched = true
  werr_of_werr : t.werr = true → s.werr = true

/-- The state `t` as the host can make it from `s` without a soft reset and without a dropped write: parameters,
results, counters and the model's schedule stand (R36, R40 to R42), and no flag is raised. -/
structure HostUpdate (s t : State) : Prop extends RaisesNoFlag s t where
  frame : t = { s with
    ie := t.ie, done := t.done, matched := t.matched, werr := t.werr, errcode := t.errcode, cmd := t.cmd,
    key := t.key, opa := t.opa, opb := t.opb, len := t.len, kpLen := t.kpLen, topn := t.topn, mem := t.mem,
    pending := t.pending, resp := t.resp, fresh := t.fresh }

theorem HostUpdate.refl (s : State) : HostUpdate s s := ⟨⟨id, id, id⟩, rfl⟩

theorem HostUpdate.respond {s t : State} (h : HostUpdate s t) (r : Response) : HostUpdate s (t.respond r) where
  frame := congrArg (State.respond · r) h.frame
  done_of_done := h.done_of_done
  matched_of_matched := h.matched_of_matched
  werr_of_werr := h.werr_of_werr

theorem hostUpdate_hostRead (s : State) (g : Target) : HostUpdate s (s.hostRead g) := by
  obtain ⟨-, -, h⟩ | ⟨-, h⟩ := hostRead_cases s g <;> rw [h] <;> exact ⟨⟨id, id, id⟩, rfl⟩

theorem hostUpdate_writeStatus (s : State) (w : Word) : HostUpdate s (s.writeStatus w) where
  frame := rfl
  done_of_done h := (Bool.and_eq_true_iff.1 h).1
  matched_of_matched := id
  werr_of_werr h := (Bool.and_eq_true_iff.1 h).1

theorem hostUpdate_accept (s : State) (w : Word) : HostUpdate s (s.accept w) where
  frame := rfl
  done_of_done h := nomatch h
  matched_of_matched h := nomatch h
  werr_of_werr := id

/-- A write that a pending command drops sets WERR and does nothing else; otherwise it takes effect (R260). -/
theorem unlessBusy_cases {s t : State} (h : HostUpdate s t) :
    (s.busy = true ∧ s.unlessBusy t = { s with werr := true }) ∨ HostUpdate s (s.unlessBusy t) := by
  cases hb : s.busy with
  | true => exact .inl ⟨rfl, unlessBusy_of_busy s t hb⟩
  | false => rw [unlessBusy_of_idle s t hb]; exact .inr h

/-- All that a host write to a register can do: a soft reset, a dropped write, or an update without a flag raised. -/
theorem writeReg_cases (s : State) (w : Word) (r : Reg) :
    (r = .ctrl ∧ w.getLsbD 1 = true ∧ s.writeReg w r = s.softReset) ∨
    (s.busy = true ∧ s.writeReg w r = { s with werr := true }) ∨ HostUpdate s (s.writeReg w r) := by
  cases r with
  | id | cfg0 | cfg1 | res0 | res1 | res2 | invCount | retained | nresults => exact .inr (.inr (.refl s))
  | ctrl =>
    cases hsrst : w.getLsbD 1 with
    | true => exact .inl ⟨rfl, rfl, writeCtrl_of_srst s hsrst⟩
    | false =>
      refine .inr (.inr ?_)
      rw [State.writeReg, writeCtrl_of_no_srst s hsrst]
      exact ⟨⟨id, id, id⟩, rfl⟩
  | status => exact .inr (.inr (hostUpdate_writeStatus s w))
  | cmd => exact .inr (unlessBusy_cases (hostUpdate_accept s w))
  | key | opa | opb | len | kpLen | topn => exact .inr (unlessBusy_cases ⟨⟨id, id, id⟩, rfl⟩)

/-- All that a host write to a target can do. -/
theorem writeTarget_cases (s : State) (w : Word) (g : Target) :
    (g = .reg .ctrl ∧ w.getLsbD 1 = true ∧ s.writeTarget w g = s.softReset) ∨
    (s.busy = true ∧ s.writeTarget w g = { s with werr := true }) ∨ HostUpdate s (s.writeTarget w g) := by
  cases g with
  | reg r => exact (writeReg_cases s w r).imp_left fun ⟨hr, h⟩ => ⟨congrArg Target.reg hr, h⟩
  | reserved | rtab => exact .inr (.inr (.refl s))
  | ibuf | obuf | kpbuf => exact .inr (unlessBusy_cases ⟨⟨id, id, id⟩, rfl⟩)

/-- All that a host transaction can do to the registers: a soft reset by a write of SRST = 1 to CTRL, a write that is
dropped with WERR while a command is pending, or an update that leaves results alone and raises no flag. -/
theorem transact_register_cases (s : State) (x : Transaction) :
    (∃ w, x.target s.cfg = some (.reg .ctrl) ∧ x.op = .write w ∧ w.getLsbD 1 = true ∧
      s.transact x = s.softReset.respond .ok) ∨
    (∃ w, x.op = .write w ∧ s.busy = true ∧ s.transact x = State.respond { s with werr := true } .ok) ∨
    HostUpdate s (s.transact x) := by
  obtain ⟨-, h⟩ | ⟨g, -, -, h⟩ | ⟨g, w, hg, ho, h⟩ := transact_cases s x
  · rw [h]; exact .inr (.inr ((HostUpdate.refl s).respond _))
  · rw [h]; exact .inr (.inr (hostUpdate_hostRead s g))
  · rw [h]
    obtain ⟨rfl, hsrst, hw⟩ | ⟨hb, hw⟩ | hw := writeTarget_cases s w g
    · exact .inl ⟨w, hg, ho, hsrst, congrArg (State.respond · .ok) hw⟩
    · exact .inr (.inl ⟨w, ho, hb, congrArg (State.respond · .ok) hw⟩)
    · exact .inr (.inr (hw.respond _))

theorem transact_cfg (s : State) (x : Transaction) : (s.transact x).cfg = s.cfg := by
  obtain ⟨w, -, -, -, h⟩ | ⟨w, -, -, h⟩ | h := transact_register_cases s x
  · rw [h, respond_cfg, softReset_cfg]
  · rw [h, respond_cfg]
  · rw [h.frame]

/-- A transaction that is no soft reset writes no result register and no counter (R36, R40 to R42). -/
theorem transact_results (s : State) (x : Transaction)
    (hsrst : ∀ w, x.target s.cfg = some (.reg .ctrl) → x.op = .write w → w.getLsbD 1 = false) :
    (s.transact x).res0 = s.res0 ∧ (s.transact x).res1 = s.res1 ∧ (s.transact x).res2 = s.res2 ∧
      (s.transact x).invCount = s.invCount ∧ (s.transact x).retained = s.retained ∧
      (s.transact x).nresults = s.nresults := by
  obtain ⟨w, hg, ho, hw, -⟩ | ⟨w, -, -, h⟩ | h := transact_register_cases s x
  · exact absurd hw (by rw [hsrst w hg ho]; decide)
  · rw [h]
    exact ⟨rfl, rfl, rfl, rfl, rfl, rfl⟩
  · rw [h.frame]
    exact ⟨rfl, rfl, rfl, rfl, rfl, rfl⟩

section Flags

variable {s : State} {x : Transaction}

/-- No transaction sets DONE (R27). -/
theorem done_of_transact_done (h : (s.transact x).done = true) : s.done = true := by
  obtain ⟨w, -, -, -, ht⟩ | ⟨w, -, -, ht⟩ | ht := transact_register_cases s x
  · rw [ht, respond_done, softReset_done] at h; cases h
  · rwa [ht] at h
  · exact ht.done_of_done h

/-- No transaction sets MATCH (R29). -/
theorem matched_of_transact_matched (h : (s.transact x).matched = true) : s.matched = true := by
  obtain ⟨w, -, -, -, ht⟩ | ⟨w, -, -, ht⟩ | ht := transact_register_cases s x
  · rw [ht, respond_matched, softReset_matched] at h; cases h
  · rwa [ht] at h
  · exact ht.matched_of_matched h

/-- A transaction sets WERR only as a write while a command is pending (R30). -/
theorem werr_of_transact_werr (h : (s.transact x).werr = true) :
    s.werr = true ∨ s.busy = true ∧ ∃ w, x.op = .write w := by
  obtain ⟨w, -, -, -, ht⟩ | ⟨w, ho, hb, -⟩ | ht := transact_register_cases s x
  · rw [ht, respond_werr, softReset_werr] at h; cases h
  · exact .inr ⟨hb, w, ho⟩
  · exact .inl (ht.werr_of_werr h)

end Flags

/-! ## What a change of `rst` can do -/

/-- All that driving `rst` can do (R250). -/
theorem driveRst_cases (s : State) (level : Bool) :
    s.driveRst level = { s.powerOn with rst := level } ∨ s.driveRst level = s := by
  unfold State.driveRst
  split
  · exact .inl rfl
  · exact .inr rfl

theorem driveRst_cfg (s : State) (level : Bool) : (s.driveRst level).cfg = s.cfg := by
  obtain h | h := driveRst_cases s level <;> rw [h]
  exact powerOn_cfg s

theorem driveRst_raisesNoFlag (s : State) (level : Bool) : RaisesNoFlag s (s.driveRst level) := by
  obtain h | h := driveRst_cases s level <;> rw [h]
  · exact ⟨nofun, nofun, nofun⟩
  · exact ⟨id, id, id⟩

end Sys2Proof.Laws
end

section
/-! The obligations of spec/10_state.md on the registers one by one: their fields, what a host write stores and what
a host read returns (R21 to R25, R33 to R39, R43, R47). -/

namespace Sys2Proof.Proofs

open Sys2Proof.Machine Sys2Proof.Laws

/-- Settles O44: KEY stores the unpacked word, whose entries are remainders, and reads as the packed key. -/
theorem keyWritesAreReducedMod26 : Obligations.KeyWritesAreReducedMod26 := by
  refine ⟨fun s w hidle => ⟨Key.unpack w, transact_writeTx_idle (r := .key) hidle rfl,
      res_val _, res_val _, res_val _, res_val _⟩,
    fun s => ⟨s.key.pack, transact_readTx_reg s .key (.inr rfl), ?_, ?_, ?_, ?_⟩, by decide⟩
  · rw [pack_byte0, residueByte_toNat]
  · rw [pack_byte1, residueByte_toNat]
  · rw [pack_byte2, residueByte_toNat]
  · rw [pack_byte3, residueByte_toNat]

/-- Settles O45: the five registers have one write rule and one read rule, each at its own offset. -/
theorem operandRegistersKeepTheLowHalf : Obligations.OperandRegistersKeepTheLowHalf := by
  refine ⟨fun s w hidle => ⟨?_, ?_, ?_, ?_, ?_⟩, fun s => ⟨?_, ?_, ?_, ?_, ?_⟩, rfl, rfl, rfl, rfl, rfl⟩
  · exact transact_writeTx_idle (r := .opa) hidle rfl
  · exact transact_writeTx_idle (r := .opb) hidle rfl
  · exact transact_writeTx_idle (r := .len) hidle rfl
  · exact transact_writeTx_idle (r := .kpLen) hidle rfl
  · exact transact_writeTx_idle (r := .topn) hidle rfl
  · exact transact_readTx_reg s .opa (.inr rfl)
  · exact transact_readTx_reg s .opb (.inr rfl)
  · exact transact_readTx_reg s .len (.inr rfl)
  · exact transact_readTx_reg s .kpLen (.inr rfl)
  · exact transact_readTx_reg s .topn (.inr rfl)

/-- Settles O46: STATUS reads as `statusWord`, taken field by field, and a write to it is `writeStatus`. -/
theorem statusFieldsAndWrites : Obligations.StatusFieldsAndWrites := by
  refine ⟨fun s => ⟨s.statusWord, transact_readTx_reg s .status (.inr rfl), statusWord_busy s, statusWord_done s,
      ?_, statusWord_matched s, statusWord_werr s, statusWord_reserved_low s, ?_, statusWord_reserved_high s⟩,
    transact_writeTx_status⟩
  · rw [statusWord_err, err_iff]
  · rw [statusWord_errcode]
    cases s.errcode <;> rfl

/-- Settles O47: the two cases of a write to CTRL are its two values of SRST. -/
theorem ctrlFieldsAndWrites : Obligations.CtrlFieldsAndWrites := by
  refine ⟨fun s => ⟨s.ctrlWord, transact_readTx_reg s .ctrl (.inr rfl), ctrlWord_ie s, ctrlWord_reserved s⟩,
    fun s w hsrst => ?_, fun s w hsrst => ⟨?_, softReset_ie s⟩⟩
  · rw [transact_writeTx_ctrl, writeCtrl_of_no_srst s hsrst, State.respond]
  · rw [transact_writeTx_ctrl, writeCtrl_of_srst s hsrst]

/-- Settles O48: each parameter in its legal range fits its field. -/
theorem identificationRegistersAreConstant : Obligations.IdentificationRegistersAreConstant := by
  intro s w hlegal
  obtain ⟨⟨-, -, hibuf⟩, ⟨-, -, hkp⟩, ⟨-, htopn⟩, -, hlanes⟩ := (legal_iff s.cfg).1 hlegal
  refine ⟨transact_readTx_reg s .id (.inr rfl),
    ⟨cfg0Word s.cfg, transact_readTx_reg s .cfg0 (.inr rfl), ?_, BitVec.extractLsb'_append_eq_left⟩,
    ⟨cfg1Word s.cfg, transact_readTx_reg s .cfg1 (.inr rfl), ?_, ?_, ?_⟩,
    transact_writeTx_reg s .id w, transact_writeTx_reg s .cfg0 w, transact_writeTx_reg s .cfg1 w⟩
  · rw [cfg0Word, BitVec.extractLsb'_append_eq_right, BitVec.toNat_ofNat, Nat.mod_eq_of_lt (by omega)]
  · rw [cfg1Word, BitVec.extractLsb'_append_eq_right, BitVec.toNat_ofNat, Nat.mod_eq_of_lt (by omega)]
  · rw [cfg1Word, BitVec.extractLsb'_append_eq_of_le (by decide), BitVec.extractLsb'_append_eq_right,
      BitVec.toNat_ofNat, Nat.mod_eq_of_lt (by omega)]
  · rw [cfg1Word, BitVec.extractLsb'_append_eq_of_le (by decide), BitVec.extractLsb'_append_eq_left,
      BitVec.toNat_ofNat, Nat.mod_eq_of_lt (by omega)]

/-- Settles O52: a completion sets DONE and keeps IE, and each fall clears one of the two. -/
theorem irqIsTheLevelOfIeAndDone : Obligations.IrqIsTheLevelOfIeAndDone := by
  refine ⟨fun s => rfl, fun i s t h => ?_, fun s w hie hsrst hdone => ?_, fun s w hidle => ?_, fun s w hclear => ?_,
    fun s w hlower => irq_eq_false_of _ (.inl ?_), fun s => irq_eq_false_of _ (.inl rfl)⟩
  · have hc : Completes _ s (.next t) := h ▸ exec_completes i s
    rw [hc.frame, State.irq, Bool.and_true]
  · rw [transact_writeTx_ctrl, writeCtrl_of_no_srst s hsrst, State.irq, respond_ie, respond_done, hie, hdone]
    rfl
  · rw [transact_writeTx_cmd_idle s w hidle]
    exact irq_eq_false_of _ (.inr rfl)
  · rw [transact_writeTx_status]
    exact irq_eq_false_of _ (.inr (by simp [hclear]))
  · rw [transact_writeTx_ctrl, respond_ie]
    cases hsrst : w.getLsbD 1 with
    | true => rw [writeCtrl_of_srst s hsrst, softReset_ie]
    | false => rw [writeCtrl_of_no_srst s hsrst]; exact hlower.resolve_right (by rw [hsrst]; decide)

/-- The registers in the order of the map (R43). -/
def registerMap : List Reg :=
  [.id, .cfg0, .cfg1, .ctrl, .status, .cmd, .key, .opa, .opb, .res0, .res1, .res2, .len, .kpLen, .topn, .invCount,
    .retained, .nresults]

/-- Nothing is pending at reset, so that every register reads as stored. -/
theorem reset_readTx_reg (r : Reg) :
    (State.reset.transact (readTx r.offset)).resp = some (.data (State.reset.regWord r)) := by
  rw [transact_readTx_reg State.reset r (.inl rfl)]

/-- Settles O55: the table lists each register's offset with the word it stores at reset. -/
theorem resetValuesOfTheRegisterMap : Obligations.ResetValuesOfTheRegisterMap :=
  (List.forall_mem_map (f := fun r : Reg => (r.offset, State.reset.regWord r)) (l := registerMap)
    (P := fun p => (State.reset.transact (readTx p.1)).resp = some (.data p.2))).2 fun r _ => reset_readTx_reg r

end Sys2Proof.Proofs
end

section
/-! The obligations of spec/10_state.md on who writes what, over every step: the registers (R49) and the flags
(R27, R29, R30). -/

namespace Sys2Proof.Proofs

open Sys2Proof Sys2Proof.Machine Sys2Proof.Laws

section Step

variable {s t : State}

/-- No step changes a parameter (R9). -/
theorem step_cfg (h : step s = .next t) : t.cfg = s.cfg := by
  obtain ⟨es, -, ht⟩ | ⟨x, es, -, -, rfl⟩ | ⟨level, es, -, rfl⟩ := step_next_cases s t h
  · rw [engineTurn_frame ht]
  · exact transact_cfg _ x
  · exact driveRst_cfg _ level

/-- A step whose event is a transaction is the transaction. -/
theorem step_of_bus {x : Transaction} {es : List Event} (hx : s.events = .bus x :: es) (h : step s = .next t) :
    t = State.transact { s with events := es } x := by
  rw [step_of_event s _ es hx, handle] at h
  split at h
  · cases h
  · injection h with h
    exact h.symm

/-- A step sets DONE only as the completion of a pending command (R27). -/
theorem step_sets_done (h : step s = .next t) (h0 : s.done = false) (h1 : t.done = true) :
    (∃ w, s.pending = some w) ∧ t.pending = none := by
  have hs : s.done ≠ true := by simp [h0]
  obtain ⟨es, -, ht⟩ | ⟨x, es, -, -, rfl⟩ | ⟨level, es, -, rfl⟩ := step_next_cases s t h
  · obtain ⟨-, rfl⟩ | ⟨w, hp, hc⟩ := engineTurn_next_cases ht
    · exact absurd h1 hs
    · exact ⟨⟨w, hp⟩, congrArg State.pending hc.frame⟩
  · exact absurd (done_of_transact_done h1) hs
  · exact absurd ((driveRst_raisesNoFlag _ level).done_of_done h1) hs

/-- A step sets MATCH only as the completion of SEARCHKP without an error (R29). -/
theorem step_sets_matched (h : step s = .next t) (h0 : s.matched = false) (h1 : t.matched = true) :
    s.pending = some (encode .searchkp) ∧ t.pending = none ∧ t.errcode = .noError := by
  have hs : s.matched ≠ true := by simp [h0]
  obtain ⟨es, -, ht⟩ | ⟨x, es, -, -, rfl⟩ | ⟨level, es, -, rfl⟩ := step_next_cases s t h
  · obtain ⟨-, rfl⟩ | ⟨w, hp, hc⟩ := engineTurn_next_cases ht
    · exact absurd h1 hs
    · obtain hm | ⟨rfl, herr⟩ := hc.matched
      · exact absurd (hm ▸ h1) hs
      · exact ⟨hp, congrArg State.pending hc.frame, herr⟩
  · exact absurd (matched_of_transact_matched h1) hs
  · exact absurd ((driveRst_raisesNoFlag _ level).matched_of_matched h1) hs

/-- A step sets WERR only by a host write made while a command is pending (R30). -/
theorem step_sets_werr (h : step s = .next t) (h0 : s.werr = false) (h1 : t.werr = true) :
    (∃ v, s.pending = some v) ∧ ∃ x es w, s.events = .bus x :: es ∧ x.op = .write w := by
  have hs : s.werr ≠ true := by simp [h0]
  obtain ⟨es, -, ht⟩ | ⟨x, es, he, -, rfl⟩ | ⟨level, es, -, rfl⟩ := step_next_cases s t h
  · exact absurd ((congrArg State.werr (engineTurn_frame ht)).symm.trans h1) hs
  · obtain hw | ⟨hb, w, ho⟩ := werr_of_transact_werr h1
    · exact absurd hw hs
    · exact ⟨(busy_eq_true_iff _).1 hb, x, es, w, he, ho⟩
  · exact absurd ((driveRst_raisesNoFlag _ level).werr_of_werr h1) hs

end Step

/-- Settles O59: a turn of the engine writes no operand, and a transaction that is no soft reset no result. -/
theorem registersHaveOneWriter : Obligations.RegistersHaveOneWriter := by
  intro s t h
  refine ⟨step_cfg h, fun hbus hrst => ?_, fun x es hx hsrst => ?_⟩
  · obtain ⟨es, -, ht⟩ | ⟨x, es, he, -⟩ | ⟨level, es, he, -⟩ := step_next_cases s t h
    · rw [engineTurn_frame ht]
      exact ⟨rfl, rfl, rfl, rfl, rfl, rfl⟩
    · exact absurd he (hbus x es)
    · exact absurd he (hrst level es)
  · rw [step_of_bus hx h]
    exact transact_results _ x hsrst

/-- Settles O60: a completion alone sets DONE and MATCH, and a dropped write alone sets WERR. -/
theorem flagsAreSetOnlyAsStated : Obligations.FlagsAreSetOnlyAsStated :=
  fun _ _ h => ⟨step_sets_done h, step_sets_matched h, step_sets_werr h⟩

end Sys2Proof.Proofs
end

section
/-! The window through the port, page by page (spec/20_memory.md R61 to R65): which offset selects what, and what a
read and a write of a buffer word then do. -/

namespace Sys2Proof.Laws

open Sys2Proof Sys2Proof.Machine

/-! ## Transactions without a target -/

/-- A transaction of another width or at a misaligned offset has no target (R61, R62). -/
theorem target_eq_none_of_unserved (p : Params) {x : Transaction} (h : x.size ≠ .bits32 ∨ x.off.toNat % 4 ≠ 0) :
    x.target p = none :=
  if_neg fun ⟨hsize, hal⟩ => h.elim (· hsize) (· hal)

/-! ## The pages of the window (R63) -/

section Pages

variable (p : Params)

/-- An offset of the register page that is no register's is reserved. -/
theorem targetAt_reserved {off : Nat} (hlt : off < 0x1000) (hr : ∀ r : Reg, r.offset ≠ off) :
    targetAt p off = some .reserved := by
  rw [targetAt, if_pos hlt]
  cases h : regAt off with
  | none => rfl
  | some r => exact absurd (regAt_some h) (hr r)

variable {i : Nat} (hi : i < 0x1000)

include hi

theorem targetAt_ibufPage : targetAt p (0x1000 + i) = if i < p.ibufSize then some (.ibuf i) else none := by
  rw [targetAt, if_neg (by omega), if_pos (by omega), Nat.add_sub_cancel_left]

theorem targetAt_obufPage : targetAt p (0x2000 + i) = if i < p.ibufSize then some (.obuf i) else none := by
  rw [targetAt, if_neg (by omega), if_neg (by omega), if_pos (by omega), Nat.add_sub_cancel_left]

theorem targetAt_kpbufPage : targetAt p (0x3000 + i) = if i < p.kpSize then some (.kpbuf i) else none := by
  rw [targetAt, if_neg (by omega), if_neg (by omega), if_neg (by omega), if_pos (by omega),
    Nat.add_sub_cancel_left]

theorem targetAt_rtabPage : targetAt p (0x4000 + i) = if i < 16 * p.topnMax then some (.rtab i) else none := by
  rw [targetAt, if_neg (by omega), if_neg (by omega), if_neg (by omega), if_neg (by omega), if_pos (by omega),
    Nat.add_sub_cancel_left]

end Pages

theorem targetAt_abovePages (p : Params) {off : Nat} (h : 0x5000 ≤ off) : targetAt p off = none := by
  rw [targetAt, if_neg (by omega), if_neg (by omega), if_neg (by omega), if_neg (by omega), if_neg (by omega)]

/-! ## The regions inside their pages: legal parameters keep each within 0x1000 bytes (R9) -/

section Regions

variable {p : Params} (hlegal : p.legal = true)

include hlegal

theorem ibufSize_le_page : p.ibufSize ≤ 0x1000 := ((legal_iff p).1 hlegal).1.2.2

theorem kpSize_lt_page : p.kpSize < 0x1000 :=
  Nat.lt_of_le_of_lt ((legal_iff p).1 hlegal).2.1.2.2 (by decide)

theorem rtabSize_lt_page : 16 * p.topnMax < 0x1000 := by
  have : p.topnMax ≤ 255 := ((legal_iff p).1 hlegal).2.2.1.2
  omega

variable {i : Nat}

theorem targetAt_ibuf (h : i < p.ibufSize) : targetAt p (0x1000 + i) = some (.ibuf i) := by
  rw [targetAt_ibufPage p (Nat.lt_of_lt_of_le h (ibufSize_le_page hlegal)), if_pos h]

theorem targetAt_obuf (h : i < p.ibufSize) : targetAt p (0x2000 + i) = some (.obuf i) := by
  rw [targetAt_obufPage p (Nat.lt_of_lt_of_le h (ibufSize_le_page hlegal)), if_pos h]

theorem targetAt_kpbuf (h : i < p.kpSize) : targetAt p (0x3000 + i) = some (.kpbuf i) := by
  rw [targetAt_kpbufPage p (h.trans (kpSize_lt_page hlegal)), if_pos h]

theorem targetAt_rtab (h : i < 16 * p.topnMax) : targetAt p (0x4000 + i) = some (.rtab i) := by
  rw [targetAt_rtabPage p (h.trans (rtabSize_lt_page hlegal)), if_pos h]

end Regions

/-- A page's offset beyond its region, and every offset above the pages, selects nothing (R63). -/
theorem targetAt_beyondRegions (p : Params) {off : Nat}
    (h : (0x1000 + p.ibufSize ≤ off ∧ off < 0x2000) ∨ (0x2000 + p.ibufSize ≤ off ∧ off < 0x3000) ∨
      (0x3000 + p.kpSize ≤ off ∧ off < 0x4000) ∨ (0x4000 + 16 * p.topnMax ≤ off ∧ off < 0x5000) ∨ 0x5000 ≤ off) :
    targetAt p off = none := by
  obtain ⟨hle, hlt⟩ | ⟨hle, hlt⟩ | ⟨hle, hlt⟩ | ⟨hle, hlt⟩ | hle := h
  case inr.inr.inr.inr => exact targetAt_abovePages p hle
  all_goals
    obtain ⟨j, rfl⟩ := Nat.exists_eq_add_of_le hle
    rw [Nat.add_assoc] at hlt ⊢
  · rw [targetAt_ibufPage p (by omega), if_neg (by omega)]
  · rw [targetAt_obufPage p (by omega), if_neg (by omega)]
  · rw [targetAt_kpbufPage p (by omega), if_neg (by omega)]
  · rw [targetAt_rtabPage p (by omega), if_neg (by omega)]

/-! ## Reads and writes of an aligned offset -/

section Aligned

variable {s : State} {off : Nat} (hlt : off < 0x8000) (hal : off % 4 = 0)

include hlt hal

theorem transact_readTx_none (hg : targetAt s.cfg off = none) :
    s.transact (readTx off) = s.respond .busError :=
  transact_none s _ ((target_readTx _ _ hlt hal).trans hg)

theorem transact_writeTx_none (w : Word) (hg : targetAt s.cfg off = none) :
    s.transact (writeTx off w) = s.respond .busError :=
  transact_none s _ ((target_writeTx _ _ w hlt hal).trans hg)

variable {g : Target} (hg : targetAt s.cfg off = some g)

include hg

theorem transact_readTx_target : s.transact (readTx off) = s.hostRead g :=
  transact_read s _ g ((target_readTx _ _ hlt hal).trans hg) rfl

theorem transact_writeTx_target (w : Word) : s.transact (writeTx off w) = (s.writeTarget w g).respond .ok :=
  transact_write s _ g w ((target_writeTx _ _ w hlt hal).trans hg) rfl

end Aligned

/-- With nothing pending every target reads as stored (R67). -/
theorem hostRead_idle {s : State} (hidle : s.pending = none) (g : Target) :
    s.hostRead g = s.respond (.data (s.targetWord g)) :=
  hostRead_stored s g (.inl ((busy_eq_false_iff s).2 hidle))

/-- All that a read transaction can do, with or without a target (R67): record its response and draw a free value. -/
theorem transact_read_frame (s : State) {x : Transaction} (hread : x.op = .read) :
    ∃ r f, s.transact x = { s with resp := r, fresh := f } := by
  cases hg : x.target s.cfg with
  | none => exact ⟨_, _, transact_none s x hg⟩
  | some g =>
    rw [transact_read s x g hg hread]
    obtain ⟨-, -, h⟩ | ⟨-, h⟩ := hostRead_cases s g
    · exact ⟨_, _, h⟩
    · exact ⟨_, _, h⟩

/-- With nothing pending a read transaction draws no free value, and answers the stored word of its target. -/
theorem transact_read_idle {s : State} {x : Transaction} (hread : x.op = .read) (hidle : s.pending = none) :
    (s.transact x).fresh = s.fresh ∧
      ∀ g, x.target s.cfg = some g → (s.transact x).resp = some (.data (s.targetWord g)) := by
  have hstored : ∀ g, x.target s.cfg = some g → s.transact x = s.respond (.data (s.targetWord g)) :=
    fun g hg => (transact_read s x g hg hread).trans (hostRead_idle hidle g)
  refine ⟨?_, fun g hg => congrArg State.resp (hstored g hg)⟩
  cases hg : x.target s.cfg with
  | none => rw [transact_none s x hg, respond_fresh]
  | some g => rw [hstored g hg, respond_fresh]

/-! ## Words of the buffers that the host writes (R64) -/

/-- The target `g` is the word at the window offset `a` of a buffer that the host writes: its four bytes are what a
read returns and what a write stores. -/
structure SelectsBufferWord (a : Nat) (g : Target) : Prop where
  targetWord_eq : ∀ s : State, s.targetWord g = s.wordAt a
  writeTarget_eq : ∀ (s : State) (w : Word), s.writeTarget w g = s.unlessBusy (s.storeBytes a (wordBytes w))

/-- Every word of IBUF, OBUF and KPBUF has an aligned offset of the window, which selects it (R63). -/
theorem targetAt_hostBuffers {p : Params} {r : Nat × Nat} {k : Nat} (hlegal : p.legal = true)
    (hr : r ∈ hostBuffers p) (hk : 4 * k < r.2) :
    r.1 + 4 * k < 0x8000 ∧ (r.1 + 4 * k) % 4 = 0 ∧
      ∃ g, targetAt p (r.1 + 4 * k) = some g ∧ SelectsBufferWord (r.1 + 4 * k) g := by
  have hibuf := ibufSize_le_page hlegal
  have hkp := kpSize_lt_page hlegal
  simp only [hostBuffers, List.mem_cons, List.not_mem_nil, or_false] at hr
  obtain rfl | rfl | rfl := hr <;> dsimp only at hk ⊢
  · exact ⟨by omega, by omega, _, targetAt_ibuf hlegal hk, fun _ => rfl, fun _ _ => rfl⟩
  · exact ⟨by omega, by omega, _, targetAt_obuf hlegal hk, fun _ => rfl, fun _ _ => rfl⟩
  · exact ⟨by omega, by omega, _, targetAt_kpbuf hlegal hk, fun _ => rfl, fun _ _ => rfl⟩

section HostBuffers

variable {s : State} {r : Nat × Nat} {k : Nat} (hlegal : s.cfg.legal = true) (hr : r ∈ hostBuffers s.cfg)
  (hk : 4 * k < r.2)

include hlegal hr hk

/-- A write of a buffer word stores its bytes, unless a command is pending (R64, R260). -/
theorem transact_writeTx_buffer (w : Word) :
    s.transact (writeTx (r.1 + 4 * k) w) =
      (s.unlessBusy (s.storeBytes (r.1 + 4 * k) (wordBytes w))).respond .ok := by
  obtain ⟨hlt, hal, g, hg, hsel⟩ := targetAt_hostBuffers hlegal hr hk
  rw [transact_writeTx_target hlt hal hg, hsel.writeTarget_eq]

variable (hidle : s.pending = none)

include hidle

theorem transact_readTx_buffer_idle :
    s.transact (readTx (r.1 + 4 * k)) = s.respond (.data (s.wordAt (r.1 + 4 * k))) := by
  obtain ⟨hlt, hal, g, hg, hsel⟩ := targetAt_hostBuffers hlegal hr hk
  rw [transact_readTx_target hlt hal hg, hostRead_idle hidle, hsel.targetWord_eq]

theorem transact_writeTx_buffer_idle (w : Word) :
    s.transact (writeTx (r.1 + 4 * k) w) = (s.storeBytes (r.1 + 4 * k) (wordBytes w)).respond .ok := by
  rw [transact_writeTx_buffer hlegal hr hk, unlessBusy_of_idle _ _ ((busy_eq_false_iff s).2 hidle)]

end HostBuffers

/-! ## Words of RTAB (R45) -/

theorem rtabAddr_divMod (k : Nat) : rtabAddr (k / 4) (k % 4) = rtabAddr 0 0 + 4 * k := by
  simp only [rtabAddr]; omega

/-- Word k of RTAB is word k mod 4 of entry k div 4. -/
theorem targetWord_rtab (s : State) (k : Nat) :
    s.targetWord (.rtab (4 * k)) = if k % 4 = 3 then 0#32 else s.wordAt (rtabAddr (k / 4) (k % 4)) := by
  have hw3 : 4 * k % 16 = 12 ↔ k % 4 = 3 := by omega
  simp only [State.targetWord, hw3, rtabAddr_divMod]

/-- Every word of RTAB has an aligned offset of the window, which selects it (R63). -/
theorem targetAt_rtabWord {p : Params} {k : Nat} (hlegal : p.legal = true) (hk : 4 * k < 16 * p.topnMax) :
    0x4000 + 4 * k < 0x8000 ∧ (0x4000 + 4 * k) % 4 = 0 ∧ targetAt p (0x4000 + 4 * k) = some (.rtab (4 * k)) := by
  have := rtabSize_lt_page hlegal
  exact ⟨by omega, by omega, targetAt_rtab hlegal hk⟩

end Sys2Proof.Laws
end

section
/-! The obligations of spec/20_memory.md on the port: the address map (R63), the order of a buffer word's bytes (R64),
transactions that are not served (R61, R62) and reads (R67, R69). -/

namespace Sys2Proof.Proofs

open Sys2Proof Sys2Proof.Machine Sys2Proof.Laws

/-- Settles O42: each row of the map is one lemma on the page it lies in. -/
theorem addressMap : Obligations.AddressMap := by
  intro s w hlegal
  refine ⟨?registers, targetAt_offset s.cfg, ?reserved, ?ibufObuf, ?kpbuf, ?buffers, ?rtab, ?busError⟩
  case registers =>
    exact (List.forall_mem_map (f := fun r : Reg => (r.offset, r)) (l := registerMap)
      (P := fun q => targetAt s.cfg q.1 = some (.reg q.2) ∧ q.2.offset = q.1)).2
        fun r _ => ⟨targetAt_offset s.cfg r, rfl⟩
  case reserved =>
    intro k hk hr
    have hg := targetAt_reserved s.cfg hk hr
    exact ⟨(transact_readTx_target (by omega) (by omega) hg).trans (hostRead_stored s .reserved (.inr rfl)),
      transact_writeTx_target (by omega) (by omega) hg w⟩
  case ibufObuf => exact fun k hk => ⟨targetAt_ibuf hlegal hk, targetAt_obuf hlegal hk⟩
  case kpbuf => exact fun k hk => targetAt_kpbuf hlegal hk
  case buffers =>
    exact fun r hr k hk hidle =>
      ⟨transact_readTx_buffer_idle hlegal hr hk hidle, transact_writeTx_buffer_idle hlegal hr hk hidle w⟩
  case rtab =>
    intro k hk
    obtain ⟨hlt, hal, hg⟩ := targetAt_rtabWord hlegal hk
    refine ⟨hg, transact_writeTx_target hlt hal hg w, fun hidle => ?_⟩
    rw [transact_readTx_target hlt hal hg, hostRead_idle hidle, targetWord_rtab, State.respond]
  case busError =>
    intro off hlt hal h
    have hg := targetAt_beyondRegions s.cfg h
    exact ⟨transact_readTx_none hlt hal hg, transact_writeTx_none hlt hal w hg⟩

/-- Settles O43: a read puts the four bytes of the word together, and a write is a store of the word's bytes. -/
theorem bufferWordsAreLittleEndian : Obligations.BufferWordsAreLittleEndian := by
  intro s r k w hlegal hidle hr hk
  have hbyte := byteAt_storeBytes_inside s (r.1 + 4 * k) (wordBytes w)
  refine ⟨transact_readTx_buffer_idle hlegal hr hk hidle, _, transact_writeTx_buffer_idle hlegal hr hk hidle w, rfl,
    hbyte 0 (by simp), hbyte 1 (by simp), hbyte 2 (by simp), hbyte 3 (by simp),
    byteAt_storeBytes_outside s _ (wordBytes w), ?_⟩
  rw [transact_readTx_buffer_idle (s := (s.storeBytes _ _).respond .ok) hlegal hr hk hidle]
  exact congrArg (fun v => some (Response.data v)) (wordAt_storeBytes_wordBytes s (r.1 + 4 * k) w)

/-- Settles O41: such a transaction has no target. -/
theorem busErrorChangesNothing : Obligations.BusErrorChangesNothing :=
  fun s x h => transact_none s x (target_eq_none_of_unserved s.cfg h)

/-- Settles O49: CMD is no volatile output, and with nothing pending volatile outputs read as stored, too. -/
theorem readsHaveNoSideEffect : Obligations.ReadsHaveNoSideEffect :=
  ⟨fun s _ hread => ⟨transact_read_frame s hread, transact_read_idle hread⟩,
    fun s => transact_readTx_reg s .cmd (.inr rfl),
    fun s hidle => ⟨transact_readTx_reg s .res0 (.inl hidle), transact_readTx_reg s .res1 (.inl hidle),
      transact_readTx_reg s .res2 (.inl hidle), transact_readTx_reg s .invCount (.inl hidle),
      transact_readTx_reg s .retained (.inl hidle), transact_readTx_reg s .nresults (.inl hidle)⟩⟩

end Sys2Proof.Proofs
end

section
/-! The decoder and the encoder on every word (spec/30_encoding.md R82, R83, R86, R87): what the opcode map answers, the
fields of an encoded command, and a command word as the encoding of its command. -/

namespace Sys2Proof.Laws

open Sys2Proof

/-! ## The opcode map (R82) -/

@[simp] theorem decodeOp_opcode (i : Instr) : decodeOp (opcode i) = .ok i := by cases i <;> rfl

theorem opcode_lt (i : Instr) : (opcode i).toNat < 0x0B := by cases i <;> decide

theorem opcode_eq_of_decodeOp {op : Byte} {i : Instr} (h : decodeOp op = .ok i) : opcode i = op :=
  BitVec.eq_of_toNat_eq (opcode_of_decodeOp h)

/-- The map fails in one way only, and on no opcode below 0x0B. -/
theorem unassigned_of_decodeOp {op : Byte} {e : DecodeError} (h : decodeOp op = .error e) :
    e = .unassignedOpcode ∧ 0x0B ≤ op.toNat := by
  unfold decodeOp at h
  split at h <;> cases h
  refine ⟨rfl, ?_⟩
  simp only [imp_false] at *
  omega

theorem decodeOp_of_le {op : Byte} (h : 0x0B ≤ op.toNat) : decodeOp op = .error .unassignedOpcode := by
  cases hd : decodeOp op with
  | ok i => exact absurd (opcode_eq_of_decodeOp hd ▸ opcode_lt i) (Nat.not_lt.2 h)
  | error e => rw [(unassigned_of_decodeOp hd).1]

theorem exists_decodeOp_of_lt {op : Byte} (h : op.toNat < 0x0B) : ∃ i, decodeOp op = .ok i ∧ opcode i = op := by
  cases hd : decodeOp op with
  | ok i => exact ⟨i, rfl, opcode_eq_of_decodeOp hd⟩
  | error e => exact absurd (unassigned_of_decodeOp hd).2 (Nat.not_le.2 h)

/-! ## The two fields decide (R86) -/

theorem decode_of_rsvField_ne_zero {w : Word} (h : rsvField w ≠ 0#24) : decode w = .error .reservedBits := if_pos h

theorem decode_of_rsvField_zero {w : Word} (h : rsvField w = 0#24) : decode w = decodeOp (opField w) :=
  if_neg (not_not.2 h)

/-! ## An encoded command (R87) -/

/-- Zero extension puts 24 reserved bits that are 0 above the opcode. -/
theorem encode_eq_append (i : Instr) : encode i = 0#24 ++ opcode i := BitVec.setWidth_eq_append (by decide)

@[simp] theorem rsvField_encode (i : Instr) : rsvField (encode i) = 0#24 := by
  rw [rsvField, encode_eq_append]
  exact BitVec.extractLsb'_append_eq_left

@[simp] theorem opField_encode (i : Instr) : opField (encode i) = opcode i := by
  rw [opField, encode_eq_append]
  exact BitVec.extractLsb'_append_eq_right

@[simp] theorem decode_encode (i : Instr) : decode (encode i) = .ok i := by
  rw [decode_of_rsvField_zero (rsvField_encode i), opField_encode, decodeOp_opcode]

theorem decode_eq_ok_iff {w : Word} {i : Instr} : decode w = .ok i ↔ w = encode i :=
  ⟨encode_of_decode, fun h => h ▸ decode_encode i⟩

end Sys2Proof.Laws
end

section
/-! The obligations of spec/30_encoding.md: the decoder against the encoder (R82, R87), the decoder as a total function
(R83, R86), and the words of the opcode map. -/

namespace Sys2Proof.Proofs

open Sys2Proof Sys2Proof.Laws

/-- Settles O2: decoding inverts encoding, and the fields of a word that decodes leave it no freedom. -/
theorem decodeMatchesExactlyTheEncoding : Obligations.DecodeMatchesExactlyTheEncoding :=
  ⟨fun _ _ => decode_eq_ok_iff, rfl, rfl, rfl, rfl, rfl, rfl, rfl, rfl, rfl, rfl, rfl⟩

/-- Settles O3: with RSV = 0 the word is as legal as its opcode. -/
theorem decodeIsTotalAndRejectsReserved : Obligations.DecodeIsTotalAndRejectsReserved := by
  intro w
  refine ⟨decode_of_rsvField_ne_zero, fun hrsv hop => ?unassigned, fun hrsv hop => ?assigned⟩
  case unassigned => exact (decode_of_rsvField_zero hrsv).trans (decodeOp_of_le hop)
  case assigned =>
    rw [decode_of_rsvField_zero hrsv]
    exact exists_decodeOp_of_lt hop

/-- Settles O1: the eleven words are encodings, 0x0B is no opcode, and the last two words have a reserved bit set. -/
theorem wordsOfTheOpcodeMapDecode : Obligations.WordsOfTheOpcodeMapDecode :=
  ⟨decode_encode .nop, decode_encode .egcd, decode_encode .modinv, decode_encode .det, decode_encode .invchk,
    decode_encode .invert, decode_encode .encrypt, decode_encode .decrypt, decode_encode .score,
    decode_encode .search, decode_encode .searchkp,
    (decode_of_rsvField_zero rfl).trans (decodeOp_of_le (by decide)),
    decode_of_rsvField_ne_zero (by decide), decode_of_rsvField_ne_zero (by decide)⟩

end Sys2Proof.Proofs
end

section
/-! The completion's effects, command by command (spec/40_control.md R102): result registers, a stream in OBUF, or a
search result with its bounds (spec/44_search.md R196 to R198). -/

namespace Sys2Proof.Laws

open Sys2Proof Sys2Proof.Machine

/-! ## The bounds of a search result (R196 to R198) -/

/-- What every search on a legal stream returns for parameters `p` after at most `n` keys: entries that fit RTAB or a
plaintext that fits OBUF, and at most as many retained keys as invertible ones, at most `n`. -/
def SearchResultFits (p : Params) (n : Nat) : SearchResult → Prop
  | .ranked best inv retained => best.length ≤ p.topnMax ∧ retained ≤ inv ∧ inv ≤ n
  | .matched _ _ text inv retained => text.length ≤ p.ibufSize ∧ retained ≤ inv ∧ inv ≤ n

theorem wordOfNat_toNat {n : Nat} (h : n < 2 ^ 32) : (wordOfNat n).toNat = n := by
  rw [wordOfNat, BitVec.toNat_ofNat, Nat.mod_eq_of_lt h]

/-- Counts that fit a search fit their registers. -/
theorem wordOfNat_countsOrdered {inv retained : Nat} (hle : retained ≤ inv) (hinv : inv ≤ keySpace) :
    (wordOfNat retained).toNat ≤ (wordOfNat inv).toNat ∧ (wordOfNat inv).toNat ≤ keySpace := by
  have hspace : keySpace < 2 ^ 32 := by decide
  rw [wordOfNat_toNat (by omega), wordOfNat_toNat (by omega)]
  exact ⟨hle, hinv⟩

/-- The plaintext of a match is the ciphertext under a key (R190). -/
theorem evaluate_hit_text {st t : List Residue} {p : Option (List Residue)} {scoring : Bool} {i : Nat}
    (h : evaluate st p scoring i = .hit t) : ∃ k : Key, t = k.apply st := by
  unfold evaluate at h
  split at h
  next => cases h
  next k _ =>
    dsimp only at h
    split at h
    · injection h with h
      exact ⟨k, h.symm⟩
    · split at h <;> cases h

section Search

variable {p : Params} {st : List Residue} {n : Nat} (heven : st.length % 2 = 0) (hst : st.length ≤ p.ibufSize)
  (hn : n ≤ p.topnMax)

include heven hst hn

/-- The loop of R190 keeps its counts in order: each turn passes one key, and retains it only if it counts it. -/
theorem searchLoop_fits (q : Option (List Residue)) (scoring : Bool) (fuel i inv : Nat) (kept : List Candidate)
    (hkept : kept.length ≤ inv) (hinv : inv ≤ i) :
    SearchResultFits p (i + fuel) (searchLoop st n q scoring fuel i inv kept) := by
  induction fuel generalizing i inv kept with
  | zero => exact ⟨(best_length_le n _).trans hn, hkept, hinv⟩
  | succ fuel ih =>
    rw [searchLoop_step, show i + (fuel + 1) = i + 1 + fuel by omega]
    split
    next => exact ih _ _ _ hkept (by omega)
    next t he =>
      obtain ⟨k, rfl⟩ := evaluate_hit_text he
      exact ⟨by rwa [apply_length k st heven], by omega, by omega⟩
    next c _ => exact ih _ _ _ (by rw [List.length_cons]; omega) (by omega)
    next => exact ih _ _ _ (by omega) (by omega)

theorem searchKeys_fits (q : Option (List Residue)) (scoring : Bool) :
    SearchResultFits p keySpace (searchKeys st n q scoring) := by
  unfold searchKeys
  generalize keySpace = k
  have h := searchLoop_fits heven hst hn q scoring k 0 0 [] (Nat.le_refl 0) (Nat.le_refl 0)
  rwa [Nat.zero_add] at h

end Search

/-! ## The effects of a command -/

/-- The effects of a command that succeeds: all that it can have written when its completion sets the flags. -/
inductive Effect (s : State) : State → Prop
  | registers (w0 w1 w2 : Word) : Effect s { s with res0 := w0, res1 := w1, res2 := w2 }
  | stream (st : List Residue) (h : st.length ≤ s.cfg.ibufSize) : Effect s (s.storeObuf st)
  | search (r : SearchResult) (h : SearchResultFits s.cfg keySpace r) : Effect s (s.writeResult r)

theorem Effect.writesResultsOnly {s u : State} (h : Effect s u) : WritesResultsOnly s u := by
  cases h with
  | registers | stream => rfl
  | search r => exact writesResultsOnly_writeResult s r

/-- How a command ends: an error without effects (R222), or a success after its effects (R102). -/
inductive Ends (s : State) : Host.Outcome State Fault Refusal → Prop
  | error (c : ErrCode) : Ends s (.next (s.finish c))
  | success {u : State} (hu : Effect s u) : Ends s (.next (u.finish .noError))

/-- A command's check comes before its effects, which so may rely on it. -/
theorem Ends.ite_raise {b : Prop} [Decidable b] {s : State} {c : ErrCode} {o : Host.Outcome State Fault Refusal}
    (h : ¬ b → Ends s o) : Ends s (if b then raise c s else o) := by
  split
  · exact .error c
  · exact h ‹_›

/-- The length check of the block commands (R152, R155, R191). -/
theorem stream_of_not_badBlockLen {s : State} (h : ¬ s.badBlockLen = true) :
    s.stream.length % 2 = 0 ∧ s.stream.length ≤ s.cfg.ibufSize := by
  rw [stream_length]
  simpa [State.badBlockLen, State.lenTooLong, and_comm] using h

theorem resultLimit_le_of_not_badResultLimit {s : State} (h : ¬ s.badResultLimit = true) :
    s.resultLimit ≤ s.cfg.topnMax := by
  simpa [State.badResultLimit] using h

/-- A transformed stream fits OBUF. -/
theorem effect_storeObuf_apply {s : State} (h : ¬ s.badBlockLen = true) (k : Key) :
    Effect s (s.storeObuf (k.apply s.stream)) := by
  obtain ⟨heven, hle⟩ := stream_of_not_badBlockLen h
  exact .stream _ (by rwa [apply_length k _ heven])

theorem effect_writeResult_searchKeys {s : State} (hlen : ¬ s.badBlockLen = true) (hn : ¬ s.badResultLimit = true)
    (q : Option (List Residue)) (scoring : Bool) :
    Effect s (s.writeResult (searchKeys s.stream s.resultLimit q scoring)) := by
  obtain ⟨heven, hle⟩ := stream_of_not_badBlockLen hlen
  exact .search _ (searchKeys_fits heven hle (resultLimit_le_of_not_badResultLimit hn) q scoring)

/-- Every command ends with its error or its effects. -/
theorem exec_ends (i : Instr) (s : State) : Ends s (exec i s) := by
  cases i with
  | nop => exact .success (.registers s.res0 s.res1 s.res2)
  | egcd => exact .success (.registers ..)
  | det => exact .success (.registers _ s.res1 s.res2)
  | invchk => exact .success (.registers _ _ s.res2)
  | modinv =>
    refine .ite_raise fun _ => ?_
    split
    · exact .error _
    · exact .success (.registers _ s.res1 s.res2)
  | invert =>
    rw [exec, execInvert]
    split
    · exact .success (.registers ..)
    · exact .error _
  | encrypt => exact .ite_raise fun hlen => .success (effect_storeObuf_apply hlen _)
  | decrypt =>
    refine .ite_raise fun hlen => ?_
    split
    · exact .error _
    · exact .success (effect_storeObuf_apply hlen _)
  | score => exact .ite_raise fun _ => .success (.registers _ s.res1 s.res2)
  | search =>
    exact .ite_raise fun hlen => .ite_raise fun hn => .success (effect_writeResult_searchKeys hlen hn _ _)
  | searchkp =>
    exact .ite_raise fun hlen => .ite_raise fun _ => .ite_raise fun hn =>
      .success (effect_writeResult_searchKeys hlen hn _ _)

/-- Every command word ends so; an illegal one with its error (R105). -/
theorem complete_ends (w : Word) (s : State) : Ends s (complete w s) := by
  cases hd : decode w with
  | ok i =>
    rw [complete_of_decoded s w i hd]
    exact exec_ends i s
  | error e =>
    rw [complete_of_illegal s w e hd]
    exact .error _

end Sys2Proof.Laws
end

section
/-! The machine's invariant, operation by operation (spec/00_scope.md R9, spec/10_state.md R42, spec/40_control.md
R100, spec/44_search.md R196, R198, spec/70_reset_and_hazards.md R250): what each change of a state needs to keep it. -/

namespace Sys2Proof.Laws

open Sys2Proof Sys2Proof.Machine

/-! ## Memory inside the buffers -/

/-- A memory of a run: in canonical form, and inside the buffers. -/
structure MemoryFits (p : Params) (m : Memory) : Prop where
  wf : m.wf
  inBuffers : ∀ c ∈ m, bufferAddr p c.1 = true

/-- The buffer bytes with storage, buffer by buffer (R44, R63). -/
theorem bufferAddr_iff (p : Params) (a : Nat) : bufferAddr p a = true ↔
    (0x1000 ≤ a ∧ a < 0x1000 + p.ibufSize) ∨ (0x2000 ≤ a ∧ a < 0x2000 + p.ibufSize) ∨
      (0x3000 ≤ a ∧ a < 0x3000 + p.kpSize) ∨
      (0x4000 ≤ a ∧ a < 0x4000 + 16 * p.topnMax ∧ rtabReserved a = false) := by
  simp [bufferAddr, or_assoc, and_assoc]

theorem bufferAddr_rtab {p : Params} {a : Nat} (hle : 0x4000 ≤ a) (hlt : a < 0x4000 + 16 * p.topnMax)
    (hres : rtabReserved a = false) : bufferAddr p a = true :=
  (bufferAddr_iff p a).2 (.inr (.inr (.inr ⟨hle, hlt, hres⟩)))

section Memory

variable {p : Params} {m : Memory}

/-- A store of bytes that all have storage. -/
theorem MemoryFits.store (h : MemoryFits p m) {base : Nat} {bs : List Byte}
    (hin : ∀ a, base ≤ a → a < base + bs.length → bufferAddr p a = true) : MemoryFits p (m.store base bs) where
  wf := store_wf h.wf base bs
  inBuffers c hc := by
    obtain hc | ⟨hc, -⟩ := mem_store hc
    · exact h.inBuffers c hc
    · obtain ⟨hle, hlt⟩ := cellsFrom_mem hc
      exact hin c.1 hle hlt

theorem MemoryFits.storeObuf {s : State} (h : MemoryFits s.cfg s.mem) {st : List Residue}
    (hst : st.length ≤ s.cfg.ibufSize) : MemoryFits s.cfg (s.storeObuf st).mem :=
  h.store fun a hle hlt => by
    rw [List.length_map] at hlt
    rw [obufAddr] at hle hlt
    exact (bufferAddr_iff _ a).2 (.inr (.inl ⟨hle, by omega⟩))

theorem MemoryFits.storeRtab {s : State} (h : MemoryFits s.cfg s.mem) (es : List Candidate) :
    MemoryFits s.cfg (s.storeRtab es).mem where
  wf := store_wf h.wf _ _
  inBuffers c hc := by
    obtain hc | ⟨hle, hlt, hres⟩ := mem_storeRtab hc
    · exact h.inBuffers c hc
    · exact bufferAddr_rtab hle hlt hres

/-- A region that a soft reset may fill: its bytes have storage, but for those of W3 (R252, U2). -/
def RegionInBuffers (p : Params) (r : Nat × Nat) : Prop :=
  ∀ a, r.1 ≤ a → a < r.1 + r.2 → rtabReserved a = false → bufferAddr p a = true

theorem MemoryFits.scramble (h : MemoryFits p m) (tag : Nat) {r : Nat × Nat} (hr : RegionInBuffers p r) :
    MemoryFits p (m.scramble tag r) where
  wf := scramble_wf h.wf tag r
  inBuffers c hc := by
    obtain hc | ⟨hle, hlt, hres⟩ := mem_scramble hc
    · exact h.inBuffers c hc
    · exact hr c.1 hle hlt hres

theorem MemoryFits.foldl_scramble (h : MemoryFits p m) (tag : Nat) {rs : List (Nat × Nat)}
    (hrs : ∀ r ∈ rs, RegionInBuffers p r) : MemoryFits p (rs.foldl (Memory.scramble tag) m) := by
  induction rs generalizing m with
  | nil => exact h
  | cons r rs ih =>
    rw [List.forall_mem_cons] at hrs
    exact ih (h.scramble tag hrs.1) hrs.2

end Memory

theorem obufRegion_inBuffers (s : State) : RegionInBuffers s.cfg s.obufRegion := by
  intro a hle hlt _
  simp only [State.obufRegion, obufAddr] at hle hlt
  exact (bufferAddr_iff _ a).2 (.inr (.inl ⟨by omega, by omega⟩))

theorem rtabRegion_inBuffers (s : State) : RegionInBuffers s.cfg s.rtabRegion :=
  fun _ hle hlt hres => bufferAddr_rtab hle hlt hres

theorem outputRegions_inBuffers (s : State) (i : Instr) : ∀ r ∈ s.outputRegions i, RegionInBuffers s.cfg r := by
  have hobuf := obufRegion_inBuffers s
  have hrtab := rtabRegion_inBuffers s
  cases i with
  | nop | egcd | modinv | det | invchk | invert | score => exact nofun
  | encrypt | decrypt => exact List.forall_mem_singleton.2 hobuf
  | search => exact List.forall_mem_singleton.2 hrtab
  | searchkp => exact List.forall_mem_cons.2 ⟨hobuf, List.forall_mem_singleton.2 hrtab⟩

theorem wordOutputRegions_inBuffers (s : State) (w : Word) :
    ∀ r ∈ s.wordOutputRegions w, RegionInBuffers s.cfg r := by
  unfold State.wordOutputRegions
  split
  · exact outputRegions_inBuffers s _
  · exact nofun

theorem MemoryFits.softReset {s : State} (h : MemoryFits s.cfg s.mem) : MemoryFits s.cfg s.softReset.mem := by
  unfold State.softReset
  split
  · exact h
  · exact h.foldl_scramble _ (wordOutputRegions_inBuffers s _)

/-- The four bytes that a host write to the target stores, where it stores any, have storage. -/
def WordFits (p : Params) : Target → Prop
  | .ibuf i => ∀ j < 4, bufferAddr p (ibufAddr i + j) = true
  | .obuf i => ∀ j < 4, bufferAddr p (obufAddr i + j) = true
  | .kpbuf i => ∀ j < 4, bufferAddr p (kpbufAddr i + j) = true
  | _ => True

/-- An aligned offset below a size that is a multiple of 4 leaves room for a word (R9, R62, R63). -/
theorem wordFits_of_targetAt {p : Params} {off : Nat} {g : Target} (hlegal : p.legal = true) (hal : off % 4 = 0)
    (hg : targetAt p off = some g) : WordFits p g := by
  obtain ⟨⟨hibuf, -⟩, ⟨hkp, -⟩, -⟩ := (legal_iff p).1 hlegal
  unfold targetAt at hg
  split_ifs at hg
  case pos => split at hg <;> cases hg <;> trivial
  all_goals cases hg
  · exact fun j hj => (bufferAddr_iff _ _).2 (by rw [ibufAddr]; omega)
  · exact fun j hj => (bufferAddr_iff _ _).2 (by rw [obufAddr]; omega)
  · exact fun j hj => (bufferAddr_iff _ _).2 (by rw [kpbufAddr]; omega)
  · trivial

theorem wordFits_of_target {p : Params} {x : Transaction} {g : Target} (hlegal : p.legal = true)
    (hg : x.target p = some g) : WordFits p g := by
  unfold Transaction.target at hg
  split at hg
  next hx => exact wordFits_of_targetAt hlegal hx.2 hg
  next => cases hg

/-! ## The results that a completion leaves -/

/-- What the invariant says of buffers, results and MATCH: the part that a command's effects bear on. -/
structure ResultsInv (s : State) : Prop where
  mem : MemoryFits s.cfg s.mem
  matchedSingle : s.matched = true → s.nresults = 1#32
  nresultsFits : s.nresults.toNat ≤ s.cfg.topnMax
  countsOrdered : s.retained.toNat ≤ s.invCount.toNat ∧ s.invCount.toNat ≤ keySpace

theorem ResultsInv.writeResult {s : State} (h : ResultsInv s) (hlegal : s.cfg.legal = true)
    (hclear : s.matched = false) {r : SearchResult} (hr : SearchResultFits s.cfg keySpace r) :
    ResultsInv (s.writeResult r) := by
  obtain ⟨-, -, ⟨htopn, htopn'⟩, -⟩ := (legal_iff s.cfg).1 hlegal
  cases r with
  | ranked best inv retained =>
    obtain ⟨hbest, hle, hinv⟩ := hr
    exact
      { mem := h.mem.storeRtab best
        matchedSingle := fun hm => absurd hm (Bool.eq_false_iff.1 hclear)
        nresultsFits := (wordOfNat_toNat (by omega)).trans_le hbest
        countsOrdered := wordOfNat_countsOrdered hle hinv }
  | matched key idx text inv retained =>
    obtain ⟨htext, hle, hinv⟩ := hr
    exact
      { mem := MemoryFits.storeObuf (s := s.storeRtab _) (h.mem.storeRtab _) htext
        matchedSingle := fun _ => rfl
        nresultsFits := htopn
        countsOrdered := wordOfNat_countsOrdered hle hinv }

theorem ResultsInv.effect {s u : State} (h : ResultsInv s) (hlegal : s.cfg.legal = true)
    (hclear : s.matched = false) (hu : Effect s u) : ResultsInv u := by
  cases hu with
  | registers w0 w1 w2 => exact ⟨h.mem, h.matchedSingle, h.nresultsFits, h.countsOrdered⟩
  | stream st hst => exact ⟨h.mem.storeObuf hst, h.matchedSingle, h.nresultsFits, h.countsOrdered⟩
  | search r hr => exact h.writeResult hlegal hclear hr

/-- The flags that a completion sets fit the results that it leaves. -/
theorem ResultsInv.inv_finish {u : State} (h : ResultsInv u) (hlegal : u.cfg.legal = true)
    (hrst : u.rst = false) {c : ErrCode} (hc : u.matched = true → c = .noError) : (u.finish c).Inv where
  cfgLegal := hlegal
  memWf := h.mem.wf
  memInBuffers := h.mem.inBuffers
  pendingClear := nofun
  matchedSingle hm := ⟨hc hm, h.matchedSingle hm⟩
  nresultsFits := h.nresultsFits
  countsOrdered := h.countsOrdered
  inReset hset := absurd hset (Bool.eq_false_iff.1 hrst)

end Sys2Proof.Laws

namespace Sys2Proof.Machine

open Sys2Proof Sys2Proof.Laws

/-! ## The invariant under changes of the model's own fields and of the buffers -/

section Invariant

variable {s : State} (h : s.Inv)

include h

theorem State.Inv.memoryFits : MemoryFits s.cfg s.mem := ⟨h.memWf, h.memInBuffers⟩

/-- The model's own fields do not enter the invariant. -/
theorem State.Inv.withRecord (events : List Event) (resp : Option Response) (fresh : Nat) :
    State.Inv { s with events := events, resp := resp, fresh := fresh } :=
  ⟨h.cfgLegal, h.memWf, h.memInBuffers, h.pendingClear, h.matchedSingle, h.nresultsFits, h.countsOrdered, h.inReset⟩

theorem State.Inv.respond (r : Response) : (s.respond r).Inv := h.withRecord s.events (some r) s.fresh

theorem State.Inv.hostRead (g : Target) : (s.hostRead g).Inv := by
  obtain ⟨-, -, hr⟩ | ⟨-, hr⟩ := hostRead_cases s g <;> rw [hr]
  · exact h.withRecord _ _ _
  · exact h.withRecord _ _ _

theorem State.Inv.withMem {m : Memory} (hm : MemoryFits s.cfg m) : State.Inv { s with mem := m } :=
  ⟨h.cfgLegal, hm.wf, hm.inBuffers, h.pendingClear, h.matchedSingle, h.nresultsFits, h.countsOrdered, h.inReset⟩

/-- A pending command finds MATCH clear and `rst` released. -/
theorem State.Inv.of_pending {w : Word} (hw : s.pending = some w) : s.matched = false ∧ s.rst = false := by
  obtain ⟨-, -, -, hm⟩ := h.pendingClear w hw
  refine ⟨hm, Bool.eq_false_iff.2 fun hrst => ?_⟩
  rw [(h.inReset hrst).1] at hw
  cases hw

/-! ## The invariant under the host's transactions, which come with `rst` released -/

theorem State.Inv.softReset : s.softReset.Inv where
  cfgLegal := by rw [softReset_cfg]; exact h.cfgLegal
  memWf := h.memoryFits.softReset.wf
  memInBuffers := by rw [softReset_cfg]; exact h.memoryFits.softReset.inBuffers
  pendingClear w hw := by rw [softReset_pending] at hw; cases hw
  matchedSingle hm := by rw [softReset_matched] at hm; cases hm
  nresultsFits := by rw [softReset_nresults]; exact Nat.zero_le _
  countsOrdered := by rw [softReset_retained, softReset_invCount]; exact ⟨Nat.le_refl 0, Nat.zero_le _⟩
  inReset _ := ⟨softReset_pending s, softReset_done s, softReset_werr s, softReset_ie s⟩

variable (hrst : s.rst = false)

include hrst

/-- Operands are free, and the host may write IE and WERR and clear DONE. -/
theorem State.Inv.withControl (ie werr : Bool) {done : Bool} (hdone : done = true → s.done = true) (key : Key)
    (opa opb len kpLen topn : Half) :
    State.Inv { s with
      ie := ie, done := done, werr := werr, key := key, opa := opa, opb := opb, len := len, kpLen := kpLen,
      topn := topn } where
  cfgLegal := h.cfgLegal
  memWf := h.memWf
  memInBuffers := h.memInBuffers
  pendingClear w hw := by
    obtain ⟨hcmd, hd, herr, hm⟩ := h.pendingClear w hw
    exact ⟨hcmd, Bool.eq_false_iff.2 fun hset => Bool.eq_false_iff.1 hd (hdone hset), herr, hm⟩
  matchedSingle := h.matchedSingle
  nresultsFits := h.nresultsFits
  countsOrdered := h.countsOrdered
  inReset hset := absurd hset (Bool.eq_false_iff.1 hrst)

theorem State.Inv.accept (w : Word) : (s.accept w).Inv where
  cfgLegal := h.cfgLegal
  memWf := h.memWf
  memInBuffers := h.memInBuffers
  pendingClear _ hv := ⟨Option.some.inj hv, rfl, rfl, rfl⟩
  matchedSingle := nofun
  nresultsFits := h.nresultsFits
  countsOrdered := h.countsOrdered
  inReset hset := absurd hset (Bool.eq_false_iff.1 hrst)

theorem State.Inv.unlessBusy {t : State} (ht : t.Inv) : (s.unlessBusy t).Inv := by
  unfold State.unlessBusy
  split
  · exact h.withControl hrst s.ie true id ..
  · exact ht

/-! ### Writes, target by target -/

theorem State.Inv.writeCtrl (w : Word) : (s.writeCtrl w).Inv := by
  unfold State.writeCtrl
  split
  · exact h.softReset
  · exact h.withControl hrst (w.getLsbD 0) s.werr id ..

theorem State.Inv.writeReg (w : Word) (r : Reg) : (s.writeReg w r).Inv := by
  cases r with
  | id | cfg0 | cfg1 | res0 | res1 | res2 | invCount | retained | nresults => exact h
  | ctrl => exact h.writeCtrl hrst w
  | status => exact h.withControl hrst s.ie _ (fun hset => (Bool.and_eq_true_iff.1 hset).1) ..
  | cmd => exact h.unlessBusy hrst (h.accept hrst w)
  | key | opa | opb | len | kpLen | topn => exact h.unlessBusy hrst (h.withControl hrst s.ie s.werr id ..)

theorem State.Inv.storeWord {a : Nat} (ha : ∀ j < 4, bufferAddr s.cfg (a + j) = true) (w : Word) :
    (s.unlessBusy (s.storeBytes a (wordBytes w))).Inv :=
  h.unlessBusy hrst <| h.withMem <| h.memoryFits.store fun x hle hlt => by
    rw [wordBytes_length] at hlt
    rw [← Nat.add_sub_cancel' hle]
    exact ha _ (by omega)

theorem State.Inv.writeTarget (w : Word) {g : Target} (hg : WordFits s.cfg g) : (s.writeTarget w g).Inv := by
  cases g with
  | reg r => exact h.writeReg hrst w r
  | reserved | rtab => exact h
  | ibuf | obuf | kpbuf => exact h.storeWord hrst hg w

theorem State.Inv.transact (x : Transaction) : (s.transact x).Inv := by
  obtain ⟨-, hx⟩ | ⟨g, -, -, hx⟩ | ⟨g, w, hg, -, hx⟩ := transact_cases s x <;> rw [hx]
  · exact h.respond _
  · exact h.hostRead g
  · exact (h.writeTarget hrst w (wordFits_of_target h.cfgLegal hg)).respond _

end Invariant

/-! ## The invariant under a change of `rst` -/

theorem State.Inv.driveRst {s : State} (h : s.Inv) (level : Bool) : (s.driveRst level).Inv := by
  obtain hd | hd := driveRst_cases s level <;> rw [hd]
  · exact
      { cfgLegal := h.cfgLegal
        memWf := ⟨.nil, nofun⟩
        memInBuffers := nofun
        pendingClear := nofun
        matchedSingle := nofun
        nresultsFits := Nat.zero_le _
        countsOrdered := ⟨Nat.le_refl 0, Nat.zero_le _⟩
        inReset := fun _ => ⟨rfl, rfl, rfl, rfl⟩ }
  · exact h

/-! ## The invariant under a completion -/

theorem State.Inv.resultsInv {s : State} (h : s.Inv) : ResultsInv s :=
  ⟨h.memoryFits, fun hm => (h.matchedSingle hm).2, h.nresultsFits, h.countsOrdered⟩

theorem State.Inv.complete {s t : State} (h : s.Inv) {w : Word} (hw : s.pending = some w)
    (ht : complete w s = .next t) : t.Inv := by
  obtain ⟨hclear, hrst⟩ := h.of_pending hw
  have he := complete_ends w s
  rw [ht] at he
  cases he with
  | error c => exact h.resultsInv.inv_finish h.cfgLegal hrst fun hm => absurd hm (Bool.eq_false_iff.1 hclear)
  | success hu =>
    have hframe := hu.writesResultsOnly
    have hcfg := (congrArg (fun v : State => v.cfg.legal) hframe).trans h.cfgLegal
    have hrst' := (congrArg State.rst hframe).trans hrst
    exact (h.resultsInv.effect h.cfgLegal hclear hu).inv_finish hcfg hrst' fun _ => rfl

theorem State.Inv.engineTurn {s t : State} (h : s.Inv) (ht : engineTurn s = .next t) : t.Inv := by
  cases hp : s.pending with
  | none =>
    rw [engineTurn_of_idle s hp] at ht
    injection ht with ht
    exact ht ▸ h
  | some w =>
    rw [engineTurn_of_pending s w hp] at ht
    exact h.complete hp ht

theorem State.Inv.step {s t : State} (h : s.Inv) (ht : step s = .next t) : t.Inv := by
  obtain ⟨es, -, ht⟩ | ⟨x, es, -, hrst, rfl⟩ | ⟨level, es, -, rfl⟩ := step_next_cases s t ht
  · exact (h.withRecord es s.resp s.fresh).engineTurn ht
  · exact (h.withRecord es s.resp s.fresh).transact hrst x
  · exact (h.withRecord es s.resp s.fresh).driveRst level

end Sys2Proof.Machine
end

section
/-! What a completion depends on (spec/40_control.md R103): the operands and the buffers, and nothing of the rest of
the state. -/

namespace Sys2Proof.Laws

open Sys2Proof Sys2Proof.Machine

/-! ## The part of a state that no completion depends on -/

/-- NLANES, the flags, the earlier results, `rst` and the schedule, with CMD and the pending word. -/
structure Context where
  lanes : Nat
  fresh : Nat
  ie : Bool
  done : Bool
  matched : Bool
  werr : Bool
  rst : Bool
  errcode : ErrCode
  cmd : Word
  res0 : Word
  res1 : Word
  res2 : Word
  invCount : Word
  retained : Word
  nresults : Word
  pending : Option Word
  events : List Event
  resp : Option Response

/-- The state with the operands and buffers of `s` and the rest from `c`. -/
def inContext (s : State) (c : Context) : State :=
  { s with
    cfg := { s.cfg with nlanes := c.lanes }, ie := c.ie, done := c.done, matched := c.matched, werr := c.werr,
    errcode := c.errcode, cmd := c.cmd, res0 := c.res0, res1 := c.res1, res2 := c.res2, invCount := c.invCount,
    retained := c.retained, nresults := c.nresults, pending := c.pending, rst := c.rst, events := c.events,
    resp := c.resp, fresh := c.fresh }

@[simp] theorem inContext_key (s : State) (c : Context) : (inContext s c).key = s.key := rfl
@[simp] theorem inContext_operandA (s : State) (c : Context) : (inContext s c).operandA = s.operandA := rfl
@[simp] theorem inContext_operandB (s : State) (c : Context) : (inContext s c).operandB = s.operandB := rfl

/-- What a completion writes: a code and the buffers, and a value for each result it has one for. -/
structure Writes where
  code : ErrCode := .noError
  mem : Memory
  hit : Option Bool := none
  w0 : Option Word := none
  w1 : Option Word := none
  w2 : Option Word := none
  inv : Option Word := none
  kept : Option Word := none
  n : Option Word := none

/-- The state after a completion with these writes (R102). -/
def Writes.completed (e : Writes) (u : State) : State :=
  { u with
    done := true, matched := e.hit.getD u.matched, errcode := e.code, res0 := e.w0.getD u.res0,
    res1 := e.w1.getD u.res1, res2 := e.w2.getD u.res2, invCount := e.inv.getD u.invCount,
    retained := e.kept.getD u.retained, nresults := e.n.getD u.nresults, mem := e.mem, pending := none }

/-- The outcome `o c` of a completion in the context `c` is the same writes in every context. -/
def FixedWrites (s : State) (o : Context → Host.Outcome State Fault Refusal) : Prop :=
  ∃ e : Writes, ∀ c, o c = .next (e.completed (inContext s c))

section Completion

variable {s : State}

theorem FixedWrites.raise (code : ErrCode) : FixedWrites s fun c => raise code (inContext s c) :=
  ⟨{ code := code, mem := s.mem }, fun _ => rfl⟩

/-- A check that reads operands only comes out the same in every context. -/
theorem FixedWrites.ite {b : Prop} [Decidable b] {o o' : Context → Host.Outcome State Fault Refusal}
    (h : FixedWrites s o) (h' : FixedWrites s o') : FixedWrites s fun c => if b then o c else o' c := by
  split
  · exact h
  · exact h'

theorem FixedWrites.registers (w0 w1 w2 : Option Word) :
    FixedWrites s fun c => succeed { inContext s c with
      res0 := w0.getD c.res0, res1 := w1.getD c.res1, res2 := w2.getD c.res2 } :=
  ⟨{ mem := s.mem, w0 := w0, w1 := w1, w2 := w2 }, fun _ => rfl⟩

theorem FixedWrites.stream (st : List Residue) :
    FixedWrites s fun c => succeed ((inContext s c).storeObuf st) :=
  ⟨{ mem := (s.storeObuf st).mem }, fun _ => rfl⟩

theorem FixedWrites.search (r : SearchResult) : FixedWrites s fun c => succeed ((inContext s c).writeResult r) := by
  cases r with
  | ranked best inv retained =>
    exact ⟨{ mem := (s.storeRtab best).mem, inv := some (wordOfNat inv), kept := some (wordOfNat retained),
             n := some (wordOfNat best.length) }, fun _ => rfl⟩
  | matched key idx text inv retained =>
    exact ⟨{ mem := ((s.storeRtab [⟨key, 0, idx⟩]).storeObuf text).mem, hit := some true,
             inv := some (wordOfNat inv), kept := some (wordOfNat retained), n := some 1#32 }, fun _ => rfl⟩

end Completion

/-- Every command's writes are fixed by its operands and the buffers (R103). -/
theorem exec_fixedWrites (i : Instr) (s : State) : FixedWrites s fun c => exec i (inContext s c) := by
  cases i with
  | nop => exact .registers none none none
  | egcd =>
    exact .registers (some (wordOfNat (egcd s.operandA s.operandB).1))
      (some (wordOfInt (egcd s.operandA s.operandB).2.1)) (some (wordOfInt (egcd s.operandA s.operandB).2.2))
  | det => exact .registers (some (wordOfNat s.key.det.val)) none none
  | invchk =>
    exact .registers (some (if s.key.isInvertible then 1#32 else 0#32)) (some (wordOfNat s.key.det.val)) none
  | modinv =>
    refine .ite (b := s.operandB < 2) (.raise .badOperand) ?_
    simp only [inContext_operandA, inContext_operandB]
    split
    next => exact .raise .noInverse
    next r _ => exact .registers (some (wordOfNat r)) none none
  | invert =>
    simp only [exec, execInvert, inContext_key]
    split
    next k di _ _ =>
      exact .registers (some k.pack) (some (wordOfNat s.key.det.val)) (some (wordOfNat di))
    next => exact .raise .notInvertible
  | encrypt => exact .ite (b := s.badBlockLen) (.raise .badLength) (.stream (s.key.apply s.stream))
  | decrypt =>
    refine .ite (b := s.badBlockLen) (.raise .badLength) ?_
    simp only [inContext_key]
    split
    next => exact .raise .notInvertible
    next k _ => exact .stream (k.apply s.stream)
  | score =>
    exact .ite (b := s.lenTooLong) (.raise .badLength) (.registers (some (wordOfNat (score s.stream))) none none)
  | search =>
    exact .ite (b := s.badBlockLen) (.raise .badLength) <| .ite (b := s.badResultLimit) (.raise .badOperand) <|
      .search (searchKeys s.stream s.resultLimit none true)
  | searchkp =>
    exact .ite (b := s.badBlockLen) (.raise .badLength) <| .ite (b := s.badPatternLen) (.raise .badLength) <|
      .ite (b := s.badResultLimit) (.raise .badOperand) <|
        .search (searchKeys s.stream s.resultLimit (some s.pattern) s.cfg.kpScoresNonmatch)

end Sys2Proof.Laws
end

section
/-! The schedule (spec/40_control.md R102, R106, R107; spec/70_reset_and_hazards.md R254): a turn of the engine, the
events and `rst` under a step, and a run through all events. -/

namespace Sys2Proof.Laws

open Sys2Proof Sys2Proof.Machine

variable {s : State}

/-! ## A turn of the engine -/

theorem Completes.exists_next {p : Prop} {o : Host.Outcome State Fault Refusal} (h : Completes p s o) :
    ∃ t, o = .next t := by
  cases h with
  | error | success => exact ⟨_, rfl⟩

/-- A turn of the engine leaves nothing pending, and the schedule as it is. -/
theorem exists_engineTurn_next (s : State) :
    ∃ t, engineTurn s = .next t ∧ t.pending = none ∧ t.events = s.events ∧ t.rst = s.rst := by
  cases hp : s.pending with
  | none => exact ⟨s, engineTurn_of_idle s hp, hp, rfl, rfl⟩
  | some w =>
    have hc := complete_completes w s
    obtain ⟨t, ht⟩ := hc.exists_next
    rw [engineTurn_of_pending s w hp, ht]
    rw [ht] at hc
    exact ⟨t, rfl, by rw [hc.frame], by rw [hc.frame], by rw [hc.frame]⟩

/-- The number of a word, as the opcode table numbers it, is the word (R81). -/
theorem tableWord_toNat (w : Word) : tableWord 32 w.toNat = w := by
  rw [tableWord, Nat.mod_eq_of_lt w.isLt, BitVec.ofNat_toNat, BitVec.setWidth_eq]

/-- When it is the engine's turn, the step is that turn. -/
theorem step_of_engine {es : List Event} (h : s.events = [] ∧ es = [] ∨ s.events = .engine :: es) :
    step s = engineTurn { s with events := es } := by
  obtain ⟨h, rfl⟩ | h := h
  · rw [step_of_no_events s h, ← h]
  · rw [step_of_event s _ _ h, handle]

/-- When it is the engine's turn, the step completes the pending word. -/
theorem step_of_engine_pending {es : List Event} (h : s.events = [] ∧ es = [] ∨ s.events = .engine :: es)
    {w : Word} (hw : s.pending = some w) : step s = complete w { s with events := es } :=
  (step_of_engine h).trans (engineTurn_of_pending _ w hw)

/-! ## A transaction and a change of `rst` -/

theorem transact_events (s : State) (x : Transaction) : (s.transact x).events = s.events := by
  obtain ⟨w, -, -, -, h⟩ | ⟨w, -, -, h⟩ | h := transact_register_cases s x
  · rw [h, respond_events, softReset_events]
  · rw [h, respond_events]
  · rw [h.frame]

theorem transact_rst (s : State) (x : Transaction) : (s.transact x).rst = s.rst := by
  obtain ⟨w, -, -, -, h⟩ | ⟨w, -, -, h⟩ | h := transact_register_cases s x
  · rw [h, respond_rst, softReset_rst]
  · rw [h, respond_rst]
  · rw [h.frame]

theorem driveRst_events (s : State) (level : Bool) : (s.driveRst level).events = s.events := by
  obtain h | h := driveRst_cases s level <;> rw [h]
  exact powerOn_events s

/-- The input has the level that it is driven to (R250). -/
theorem driveRst_rst (s : State) (level : Bool) : (s.driveRst level).rst = level := by
  unfold State.driveRst
  split
  next => rfl
  next h =>
    obtain ⟨hlevel, hrst⟩ : level = false ∧ s.rst = false := by simpa using h
    rw [hlevel, hrst]

/-- A transaction with `rst` released is no refusal. -/
theorem step_of_bus_released {x : Transaction} {es : List Event} (hx : s.events = .bus x :: es)
    (hrst : s.rst = false) : step s = .next (State.transact { s with events := es } x) := by
  rw [step_of_event s _ _ hx, handle, hrst]
  exact if_neg Bool.false_ne_true

theorem step_of_bus_asserted {x : Transaction} {es : List Event} (hx : s.events = .bus x :: es)
    (hrst : s.rst = true) : step s = .refused .transactionDuringReset := by
  rw [step_of_event s _ _ hx, handle, hrst]
  exact if_pos rfl

theorem step_of_rst {level : Bool} {es : List Event} (h : s.events = .rst level :: es) :
    step s = .next (State.driveRst { s with events := es } level) := step_of_event s _ _ h

/-! ## A run through all events -/

/-- Where the host respects `rst`, a step takes the next event and meets no refusal (R254). -/
theorem exists_step_next_of_event {e : Event} {es : List Event} (he : s.events = e :: es)
    (hr : respectsReset s.rst (e :: es) = true) :
    ∃ t, step s = .next t ∧ t.events = es ∧ respectsReset t.rst t.events = true := by
  cases e with
  | bus x =>
    rw [respectsReset, Bool.and_eq_true, Bool.not_eq_true'] at hr
    refine ⟨_, step_of_bus_released he hr.1, transact_events _ x, ?_⟩
    rw [transact_events, transact_rst]
    exact hr.2
  | rst level =>
    refine ⟨_, step_of_rst he, driveRst_events _ level, ?_⟩
    rw [driveRst_events, driveRst_rst]
    exact hr
  | engine =>
    obtain ⟨t, ht, -, hev, hrst⟩ := exists_engineTurn_next { s with events := es }
    refine ⟨t, (step_of_engine (.inr he)).trans ht, hev, ?_⟩
    rw [hev, hrst]
    exact hr

theorem run_succ_of_step {M : Host.Core} {u v : M.State} (h : M.step u = .next v) (n : Nat) :
    M.run (n + 1) u = M.run n v := by
  rw [Host.Core.run, h]

/-- The events one by one, and then a turn of the engine (R106). -/
theorem exists_run_next (es : List Event) (s : State) (he : s.events = es)
    (hr : respectsReset s.rst es = true) :
    ∃ t, Host.Core.run core (es.length + 1) s = .next t ∧ t.pending = none ∧ t.events = [] := by
  induction es generalizing s with
  | nil =>
    obtain ⟨t, ht, hp, hev, -⟩ := exists_engineTurn_next s
    exact ⟨t, run_succ_of_step (M := core) ((step_of_no_events s he).trans ht) 0, hp, hev.trans he⟩
  | cons e es ih =>
    obtain ⟨t, ht, hev, hr'⟩ := exists_step_next_of_event he hr
    obtain ⟨u, hu⟩ := ih t hev (hev ▸ hr')
    exact ⟨u, (run_succ_of_step (M := core) ht _).trans hu.1, hu.2⟩

end Sys2Proof.Laws
end

section
/-! The obligations of spec/40_control.md: the step and its schedule (R102, R106, R107), acceptance (R100), what a
completion writes and depends on (R102 to R105), and the machine's invariant under a step. -/

namespace Sys2Proof.Proofs

open Sys2Proof Sys2Proof.Machine Sys2Proof.Laws

/-- Settles O57: every operation that a step can be keeps the invariant. -/
theorem stepKeepsTheInvariant : Obligations.StepKeepsTheInvariant :=
  fun _ _ h ht => h.step ht

/-- Settles O6: a completion writes results and the flags DONE, MATCH and ERRCODE only. -/
theorem everyCommandCompletes : Obligations.EveryCommandCompletes := by
  intro i s
  have hc := exec_completes i s
  obtain ⟨t, ht⟩ := hc.exists_next
  rw [ht] at hc
  refine ⟨t, ht, ?_⟩
  rw [hc.frame]
  exact ⟨rfl, rfl, rfl, rfl, rfl, rfl, rfl, rfl, rfl, rfl, rfl, rfl, rfl⟩

/-- Settles O10: the writes that the operands fix are the outcome in every context. -/
theorem completionIgnoresLanesAndSchedule : Obligations.CompletionIgnoresLanesAndSchedule := by
  intro i s
  obtain ⟨e, he⟩ := exec_fixedWrites i s
  exact ⟨e.code, e.mem, e.hit, e.w0, e.w1, e.w2, e.inv, e.kept, e.n,
    fun lanes fresh ie done matched werr rst errcode cmd res0 res1 res2 invCount retained nresults pending events
      resp =>
    he ⟨lanes, fresh, ie, done, matched, werr, rst, errcode, cmd, res0, res1, res2, invCount, retained, nresults,
      pending, events, resp⟩⟩

/-- Settles O58: each event is one step without a refusal, and the engine's turn after them completes the command. -/
theorem pendingCommandsComplete : Obligations.PendingCommandsComplete :=
  fun s hr => exists_run_next s.events s rfl hr

/-- Settles O4: each kind of event is one case of a step, and a fetched word decodes to its command. -/
theorem stepRunsTheDecodedCommand : Obligations.StepRunsTheDecodedCommand := by
  refine ⟨fun s es w i h hw hi => (step_of_engine_pending h hw).trans (complete_of_decoded _ w i hi),
    fun s es h hidle => (step_of_engine h).trans (engineTurn_of_idle _ hidle),
    fun s x es hx => ⟨step_of_bus_released hx, step_of_bus_asserted hx⟩, fun s level es h => step_of_rst h,
    fun s i => ?_⟩
  rw [State.withFetchWord, tableWord_toNat]
  exact (step_of_engine_pending (.inr rfl) rfl).trans (complete_of_decoded _ _ i (decode_encode i))

/-- Settles O5: an accepted write is `accept` with its response. -/
theorem acceptanceIsOneEvent : Obligations.AcceptanceIsOneEvent :=
  fun s w hidle => transact_writeTx_cmd_idle s w hidle

/-- Settles O8: NOP succeeds on the state as it is. -/
theorem nopCompletes : Obligations.NopCompletes :=
  fun s => succeed_eq s

/-- Settles O9: the engine's turn completes a word that does not decode with its error alone. -/
theorem illegalWordCompletesWithIllegalCmd : Obligations.IllegalWordCompletesWithIllegalCmd := by
  intro s es w e h hw he
  exact (step_of_engine_pending h hw).trans (complete_of_illegal _ w e he)

end Sys2Proof.Proofs
end

section
/-! The extended GCD and the modular inverse as mathematics (spec/41_modular_algebra.md R120 to R123): the recursion
without its fuel, Bézout's identity, the bounds, the step count, and what an inverse is. -/

namespace Sys2Proof.Laws

open Sys2Proof Sys2Proof.Machine

/-! ## The recursion without its fuel (R120) -/

/-- Fuel above the first argument is fuel enough: how much there is does not matter. -/
theorem egcdFuel_eq_of_lt {f g a : Nat} (hf : a < f) (hg : a < g) (b : Nat) : egcdFuel f a b = egcdFuel g a b := by
  induction f generalizing g a b with
  | zero => omega
  | succ f ih =>
    obtain ⟨g, rfl⟩ : ∃ n, g = n + 1 := ⟨g - 1, by omega⟩
    rw [egcdFuel, egcdFuel]
    split
    · rfl
    next ha =>
      have hlt : b % a < a := Nat.mod_lt _ (Nat.pos_of_ne_zero ha)
      rw [ih (g := g) (by omega) (by omega)]

theorem egcdStepsFuel_eq_of_lt {f g a : Nat} (hf : a < f) (hg : a < g) (b : Nat) :
    egcdStepsFuel f a b = egcdStepsFuel g a b := by
  induction f generalizing g a b with
  | zero => omega
  | succ f ih =>
    obtain ⟨g, rfl⟩ : ∃ n, g = n + 1 := ⟨g - 1, by omega⟩
    rw [egcdStepsFuel, egcdStepsFuel]
    split
    · rfl
    next ha =>
      have hlt : b % a < a := Nat.mod_lt _ (Nat.pos_of_ne_zero ha)
      rw [ih (g := g) (by omega) (by omega)]

@[simp] theorem egcd_zero_left (b : Nat) : egcd 0 b = (b, 0, 1) := rfl

theorem egcd_of_pos {a : Nat} (ha : 0 < a) (b : Nat) :
    egcd a b = ((egcd (b % a) a).1, (egcd (b % a) a).2.2 - ((b / a : Nat) : Int) * (egcd (b % a) a).2.1,
      (egcd (b % a) a).2.1) := by
  rw [egcd, egcdFuel, if_neg ha.ne', egcdFuel_eq_of_lt (Nat.mod_lt b ha) (Nat.lt_succ_self (b % a))]
  rfl

@[simp] theorem egcdSteps_zero_left (b : Nat) : egcdSteps 0 b = 0 := rfl

theorem egcdSteps_of_pos {a : Nat} (ha : 0 < a) (b : Nat) : egcdSteps a b = egcdSteps (b % a) a + 1 := by
  rw [egcdSteps, egcdStepsFuel, if_neg ha.ne', egcdStepsFuel_eq_of_lt (Nat.mod_lt b ha) (Nat.lt_succ_self (b % a))]
  rfl

/-! ## The contract of egcd (R122) -/

/-- A first argument that divides the second ends the recursion after one step. -/
theorem egcd_of_dvd {a b : Nat} (ha : 0 < a) (h : b % a = 0) : egcd a b = (a, 1, 0) := by
  rw [egcd_of_pos ha, h, egcd_zero_left]
  simp

theorem egcd_fst (a b : Nat) : (egcd a b).1 = Nat.gcd a b := by
  induction a, b using Nat.gcd.induction with
  | H0 b => rw [egcd_zero_left, Nat.gcd_zero_left]
  | H1 a b ha ih => rw [egcd_of_pos ha, Nat.gcd_rec, ih]

/-- Bézout's identity. -/
theorem egcd_bezout (a b : Nat) : (a : Int) * (egcd a b).2.1 + (b : Int) * (egcd a b).2.2 = ((egcd a b).1 : Int) := by
  induction a, b using Nat.gcd.induction with
  | H0 b => simp
  | H1 a b ha ih =>
    rw [egcd_of_pos ha]
    dsimp only
    have hb : (b : Int) = ((b % a : Nat) : Int) + a * ((b / a : Nat) : Int) := by
      exact_mod_cast (Nat.mod_add_div b a).symm
    rw [← ih]
    generalize ((b / a : Nat) : Int) = q at hb ⊢
    rw [hb]
    ring

/-- Each coefficient is bounded by the other operand. -/
theorem egcd_natAbs_le (a b : Nat) : (egcd a b).2.1.natAbs ≤ max b 1 ∧ (egcd a b).2.2.natAbs ≤ max a 1 := by
  induction a, b using Nat.gcd.induction with
  | H0 b => simp
  | H1 a b ha ih =>
    obtain ⟨hx, hy⟩ := ih
    obtain hr | hr := Nat.eq_zero_or_pos (b % a)
    · rw [egcd_of_dvd ha hr]
      exact ⟨le_max_right .., Nat.zero_le _⟩
    · rw [egcd_of_pos ha]
      refine ⟨?_, hx⟩
      rw [max_eq_left (Nat.succ_le_of_lt ha)] at hx
      rw [max_eq_left (Nat.succ_le_of_lt hr)] at hy
      refine le_max_of_le_left ?_
      calc _ ≤ _ := Int.natAbs_sub_le _ _
        _ = (egcd (b % a) a).2.2.natAbs + b / a * (egcd (b % a) a).2.1.natAbs := by
          rw [Int.natAbs_mul, Int.natAbs_natCast]
        _ ≤ b % a + b / a * a := Nat.add_le_add hy (Nat.mul_le_mul_left _ hx)
        _ = b := by rw [Nat.mul_comm, Nat.mod_add_div]

/-- Lamé's bound: operands that take `n` steps, the smaller one first, are at least Fibonacci numbers. -/
theorem fib_egcdSteps_le (a b : Nat) :
    Nat.fib (egcdSteps a b + 1) ≤ max a 1 ∧ (a < b → Nat.fib (egcdSteps a b + 2) ≤ b) := by
  induction a, b using Nat.gcd.induction with
  | H0 b => exact ⟨Nat.le_refl 1, fun hb => hb⟩
  | H1 a b ha ih =>
    obtain ⟨hr, ha'⟩ := ih
    have hlt : b % a < a := Nat.mod_lt b ha
    rw [egcdSteps_of_pos ha]
    refine ⟨le_max_of_le_left (ha' hlt), fun hab => ?_⟩
    obtain hr0 | hpos := Nat.eq_zero_or_pos (b % a)
    · rw [hr0, egcdSteps_zero_left]
      exact Nat.lt_of_le_of_lt ha hab
    · calc _ = _ := Nat.fib_add_two
        _ ≤ b % a + a := Nat.add_le_add (by rwa [max_eq_left hpos] at hr) (ha' hlt)
        _ ≤ b % a + a * (b / a) := Nat.add_le_add_left (Nat.le_mul_of_pos_right a (Nat.div_pos hab.le ha)) _
        _ = b := Nat.mod_add_div b a

/-- A 16-bit operand is below the 25th Fibonacci number. -/
theorem egcdSteps_le {a : Nat} (ha : a ≤ 65535) (b : Nat) : egcdSteps a b ≤ 23 := by
  by_contra hn
  have h25 : Nat.fib 25 ≤ Nat.fib (egcdSteps a b + 1) := Nat.fib_mono (by omega)
  have hfib : Nat.fib 25 = 75025 := by decide
  have := (fib_egcdSteps_le a b).1
  omega

/-! ## The modular inverse (R123) -/

theorem modinv_eq_none_iff (a m : Nat) : modinv a m = none ↔ Nat.gcd (a % m) m ≠ 1 := by
  simp [modinv, egcd_fst]

/-- A result of modinv is an inverse: Bézout's identity reduced mod m. -/
theorem modinv_spec {a m r : Nat} (hm : 2 ≤ m) (h : modinv a m = some r) : r < m ∧ a * r % m = 1 := by
  have hg : Nat.gcd (a % m) m = 1 := by
    by_contra hg
    rw [(modinv_eq_none_iff a m).2 hg] at h
    cases h
  have hr : (r : Int) = (egcd (a % m) m).2.1 % m := by
    have hr : ((egcd (a % m) m).2.1 % (m : Int)).toNat = r := by simpa [modinv, egcd_fst, hg] using h
    rw [← hr, Int.toNat_of_nonneg (Int.emod_nonneg _ (by omega))]
  refine ⟨?_, ?_⟩
  · have := Int.emod_lt_of_pos (egcd (a % m) m).2.1 (b := m) (by omega)
    omega
  · have hone : (a : ZMod m) * r = 1 := by
      have hbez := congrArg (Int.cast : Int → ZMod m) (egcd_bezout (a % m) m)
      rw [egcd_fst, hg] at hbez
      have hcast : (r : ZMod m) = ((egcd (a % m) m).2.1 : Int) := by
        rw [← ZMod.intCast_mod, ← hr, Int.cast_natCast]
      rw [hcast]
      simpa using hbez
    have hmod : a * r % m = 1 % m := (ZMod.natCast_eq_natCast_iff' ..).1 (by exact_mod_cast hone)
    rwa [Nat.mod_eq_of_lt hm] at hmod

/-- The inverse below m is the result of modinv, and the only one. -/
theorem modinv_eq_some_iff {a m r : Nat} (hm : 2 ≤ m) : modinv a m = some r ↔ r < m ∧ a * r % m = 1 := by
  refine ⟨modinv_spec hm, fun ⟨hlt, hr⟩ => ?_⟩
  have hr' : a * r ≡ 1 [MOD m] := by rw [Nat.ModEq, hr, Nat.mod_eq_of_lt hm]
  have hcop : Nat.gcd a m = 1 := Nat.coprime_of_mul_modEq_one r hr'
  cases hq : modinv a m with
  | none =>
    rw [modinv_eq_none_iff, ← Nat.gcd_rec, Nat.gcd_comm] at hq
    exact absurd hcop hq
  | some q =>
    obtain ⟨hqlt, hq⟩ := modinv_spec hm hq
    have heq : q ≡ r [MOD m] :=
      Nat.ModEq.cancel_left_of_coprime (Nat.gcd_comm a m ▸ hcop) (hq.trans hr.symm)
    rw [heq.eq_of_lt_of_lt hqlt hlt]

end Sys2Proof.Laws
end

section
/-! Keys as matrices over the integers mod 26 (spec/41_modular_algebra.md R126 to R132): the determinant, the inverse
of a determinant, and the inverse key. -/

namespace Sys2Proof.Laws

open Sys2Proof Sys2Proof.Machine

/-! ## Residues in the ring of integers mod 26 (R12) -/

@[simp] theorem residueOfInt_val (z : Int) : ((residueOfInt z).val : Int) = z % 26 :=
  Int.toNat_of_nonneg (Int.emod_nonneg z (by decide))

theorem residueOfInt_cast (z : Int) : ((residueOfInt z).val : ZMod 26) = z := by
  rw [← Int.cast_natCast, residueOfInt_val]
  exact ZMod.intCast_mod z 26

theorem residueOfNat_cast (n : Nat) : ((residueOfNat n).val : ZMod 26) = n := ZMod.natCast_mod n 26

/-- A residue is determined by its class mod 26. -/
theorem residue_eq_of_cast {x y : Residue} (h : (x.val : ZMod 26) = y.val) : x = y := by
  have hmod := (ZMod.natCast_eq_natCast_iff' x.val y.val 26).1 h
  rw [Nat.mod_eq_of_lt x.isLt, Nat.mod_eq_of_lt y.isLt] at hmod
  exact Fin.ext hmod

/-- A number below 26 is the remainder of another exactly when the two agree in the ring. -/
theorem mod_eq_of_cast {n r : Nat} (hr : r < 26) (h : (n : ZMod 26) = r) : n % 26 = r :=
  ((ZMod.natCast_eq_natCast_iff' n r 26).1 h).trans (Nat.mod_eq_of_lt hr)

/-! ## The determinant and its inverse (R126, R128) -/

theorem det_val (k : Key) : (k.det.val : Int) = ((k.a.val : Int) * k.d.val - (k.b.val : Int) * k.c.val) % 26 :=
  residueOfInt_val _

theorem det_cast (k : Key) : (k.det.val : ZMod 26) = k.a.val * k.d.val - k.b.val * k.c.val := by
  rw [Key.det, residueOfInt_cast]
  push_cast
  rfl

theorem isInvertible_iff (k : Key) : k.isInvertible = true ↔ Nat.gcd k.det.val 26 = 1 := decide_eq_true_iff

theorem coprime_26_iff : ∀ r : Residue,
    Nat.gcd r.val 26 = 1 ↔ r.val ∈ [1, 3, 5, 7, 9, 11, 15, 17, 19, 21, 23, 25] := by decide

/-- A residue has no inverse mod 26 exactly when it shares a factor with 26. -/
theorem modinv_residue_eq_none_iff (r : Residue) : modinv r.val 26 = none ↔ Nat.gcd r.val 26 ≠ 1 := by
  rw [modinv_eq_none_iff, Nat.mod_eq_of_lt r.isLt]

/-- An inverse mod 26 is one in the ring. -/
theorem modinv_26_eq_some_iff {n r : Nat} : modinv n 26 = some r ↔ r < 26 ∧ (n : ZMod 26) * r = 1 := by
  rw [modinv_eq_some_iff (by decide)]
  refine and_congr_right fun _ => ⟨fun h => ?_, fun h => ?_⟩
  · exact_mod_cast (ZMod.natCast_eq_natCast_iff' (n * r) 1 26).2 h
  · exact mod_eq_of_cast (by decide) (by exact_mod_cast h)

/-! ## The inverse key (R131) -/

/-- The invertibility test of R131 and the failure of modinv are the same. -/
theorem invert_eq_map_modinv (k : Key) : k.invert = (modinv k.det.val 26).map k.scaledAdjugate := by
  rw [Key.invert]
  split
  · rfl
  next h => rw [(modinv_residue_eq_none_iff k.det).2 ((isInvertible_iff k).not.1 h), Option.map_none]

/-- A singular key has no inverse (R131). -/
theorem invert_eq_none {k : Key} (h : Nat.gcd k.det.val 26 ≠ 1) : k.invert = none := by
  rw [invert_eq_map_modinv, (modinv_residue_eq_none_iff k.det).2 h, Option.map_none]

/-- A determinant coprime to 26 has an inverse, and the inverse key is the adjugate scaled by it. -/
theorem exists_invert {k : Key} (h : Nat.gcd k.det.val 26 = 1) :
    ∃ di, modinv k.det.val 26 = some di ∧ k.invert = some (k.scaledAdjugate di) := by
  obtain ⟨di, hdi⟩ := Option.ne_none_iff_exists'.1 fun hn => (modinv_residue_eq_none_iff k.det).1 hn h
  exact ⟨di, hdi, by rw [invert_eq_map_modinv, hdi, Option.map_some]⟩

/-! ## Keys as matrices (R14, R132) -/

/-- The matrix [[a, b], [c, d]] of a key over the ring of integers mod 26. -/
def keyMatrix (k : Key) : Matrix (Fin 2) (Fin 2) (ZMod 26) :=
  !![(k.a.val : ZMod 26), k.b.val; k.c.val, k.d.val]

theorem keyMatrix_eq_iff (k l : Key) : keyMatrix k = keyMatrix l ↔
    ((k.a.val : ZMod 26) = l.a.val ∧ (k.b.val : ZMod 26) = l.b.val) ∧
      (k.c.val : ZMod 26) = l.c.val ∧ (k.d.val : ZMod 26) = l.d.val := by
  simp [keyMatrix]

theorem keyMatrix_injective : Function.Injective keyMatrix := by
  intro k l h
  obtain ⟨⟨ha, hb⟩, hc, hd⟩ := (keyMatrix_eq_iff k l).1 h
  obtain ⟨a, b, c, d⟩ := k
  rw [Key.mk.injEq]
  exact ⟨residue_eq_of_cast ha, residue_eq_of_cast hb, residue_eq_of_cast hc, residue_eq_of_cast hd⟩

theorem det_keyMatrix (k : Key) : (keyMatrix k).det = k.det.val := by
  rw [keyMatrix, Matrix.det_fin_two_of, det_cast]

/-- The scaled adjugate of R131 is the adjugate of the matrix, scaled. -/
theorem keyMatrix_scaledAdjugate (k : Key) (di : Nat) :
    keyMatrix (k.scaledAdjugate di) = (di : ZMod 26) • (keyMatrix k).adjugate := by
  rw [keyMatrix, keyMatrix, Matrix.adjugate_fin_two_of]
  simp [Key.scaledAdjugate, residueOfInt_cast, mul_comm]

/-- A key applied to a pair is its matrix applied to the pair's vector (R14, R150). -/
theorem applyPair_cast (k : Key) (x y : Residue) :
    ![((k.applyPair x y).1.val : ZMod 26), ((k.applyPair x y).2.val : ZMod 26)] =
      (keyMatrix k).mulVec ![(x.val : ZMod 26), y.val] := by
  rw [keyMatrix, Key.applyPair, residueOfNat_cast, residueOfNat_cast, Matrix.cons_mulVec,
    Matrix.cons_mulVec, Matrix.empty_mulVec, Matrix.vec2_dotProduct', Matrix.vec2_dotProduct']
  push_cast
  rfl

/-- The entries of a product that is the identity, as remainders mod 26. -/
theorem mul_entries_of_keyMatrix_mul_eq_one {k l : Key} (h : keyMatrix k * keyMatrix l = 1) :
    (k.a.val * l.a.val + k.b.val * l.c.val) % 26 = 1 ∧ (k.a.val * l.b.val + k.b.val * l.d.val) % 26 = 0 ∧
      (k.c.val * l.a.val + k.d.val * l.c.val) % 26 = 0 ∧ (k.c.val * l.b.val + k.d.val * l.d.val) % 26 = 1 := by
  rw [keyMatrix, keyMatrix, Matrix.mul_fin_two, Matrix.one_fin_two] at h
  have entry (i j : Fin 2) := congrFun (congrFun h i) j
  refine ⟨mod_eq_of_cast (by decide) ?_, mod_eq_of_cast (by decide) ?_, mod_eq_of_cast (by decide) ?_,
    mod_eq_of_cast (by decide) ?_⟩
  · exact_mod_cast entry 0 0
  · exact_mod_cast entry 0 1
  · exact_mod_cast entry 1 0
  · exact_mod_cast entry 1 1

/-! ## The inverse key is the inverse matrix (R132) -/

theorem keyMatrix_mul_of_invert {k l : Key} (h : k.invert = some l) : keyMatrix l * keyMatrix k = 1 := by
  rw [invert_eq_map_modinv, Option.map_eq_some_iff] at h
  obtain ⟨di, hdi, rfl⟩ := h
  rw [keyMatrix_scaledAdjugate, Matrix.smul_mul, Matrix.adjugate_mul, det_keyMatrix, smul_smul, mul_comm,
    (modinv_26_eq_some_iff.1 hdi).2, one_smul]

/-- The determinant of an inverse matrix is the inverse of the determinant. -/
theorem modinv_det_of_keyMatrix_mul {k l : Key} (h : keyMatrix l * keyMatrix k = 1) :
    modinv k.det.val 26 = some l.det.val := by
  have hdet := congrArg Matrix.det h
  rw [Matrix.det_mul, Matrix.det_one, det_keyMatrix, det_keyMatrix, mul_comm] at hdet
  exact modinv_26_eq_some_iff.2 ⟨l.det.isLt, hdet⟩

/-- A key's inverse is the one key whose matrix is the inverse matrix. -/
theorem invert_eq_some_iff {k l : Key} : k.invert = some l ↔ keyMatrix l * keyMatrix k = 1 := by
  refine ⟨keyMatrix_mul_of_invert, fun h => ?_⟩
  have hinv : k.invert = some (k.scaledAdjugate l.det.val) := by
    rw [invert_eq_map_modinv, modinv_det_of_keyMatrix_mul h, Option.map_some]
  have heq : keyMatrix (k.scaledAdjugate l.det.val) = keyMatrix l :=
    left_inv_eq_right_inv (keyMatrix_mul_of_invert hinv) (mul_eq_one_comm.1 h)
  rw [hinv, keyMatrix_injective heq]

/-- Inverting twice gives the key back: an inverse matrix is two-sided. -/
theorem invert_symm {k l : Key} (h : k.invert = some l) : l.invert = some k :=
  invert_eq_some_iff.2 (mul_eq_one_comm.1 (invert_eq_some_iff.1 h))

theorem isInvertible_of_invert {k l : Key} (h : k.invert = some l) : k.isInvertible = true := by
  rw [← invert_isSome, h, Option.isSome_some]

/-- The inverse key's map undoes the key's map. -/
theorem applyPair_invert {k l : Key} (h : k.invert = some l) (x y : Residue) :
    l.applyPair (k.applyPair x y).1 (k.applyPair x y).2 = (x, y) := by
  have hvec := applyPair_cast l (k.applyPair x y).1 (k.applyPair x y).2
  rw [applyPair_cast k, Matrix.mulVec_mulVec, invert_eq_some_iff.1 h, Matrix.one_mulVec] at hvec
  exact Prod.ext (residue_eq_of_cast (congrFun hvec 0)) (residue_eq_of_cast (congrFun hvec 1))

end Sys2Proof.Laws
end

section
/-! The number of invertible keys (spec/41_modular_algebra.md R129): by the products a·d and b·c that make the
determinant, not key by key. -/

namespace Sys2Proof.Laws

open Sys2Proof Sys2Proof.Machine

/-- How many pairs of residues have the product `p` mod 26. -/
def productCount (p : Residue) : Nat := Fintype.card {u : Residue × Residue // u.1 * u.2 = p}

/-- The products of two residues: 12 pairs for each unit, and more the more factors `p` shares with 26. -/
theorem productCount_eq : ∀ p : Residue, productCount p =
    if p = 0 then 75 else if p = 13 then 25 else if p.val % 2 = 0 then 36 else 12 := by decide

/-- A sum over pairs of a function of their product, collected by the product. -/
theorem sum_product (g : Residue → Nat) :
    ∑ u : Residue × Residue, g (u.1 * u.2) = ∑ p, productCount p * g p := by
  rw [← Finset.sum_fiberwise' Finset.univ (fun u : Residue × Residue => u.1 * u.2)]
  refine Finset.sum_congr rfl fun p _ => ?_
  rw [Finset.sum_const, productCount, Fintype.card_subtype, smul_eq_mul]

/-- The determinant in the arithmetic of residues. -/
theorem det_eq_sub (k : Key) : k.det = k.a * k.d - k.b * k.c := by
  have h := det_val k
  rw [Fin.ext_iff, Fin.sub_def, Fin.val_mul, Fin.val_mul]
  dsimp only
  rw [← Nat.cast_mul, ← Nat.cast_mul] at h
  omega

/-- A key by its two products' factors, (a, d) and (b, c). -/
def factors (k : Key) : (Residue × Residue) × (Residue × Residue) := ((k.a, k.d), (k.b, k.c))

/-- The key with these factors. -/
def keyOfFactors (x : (Residue × Residue) × (Residue × Residue)) : Key := ⟨x.1.1, x.2.1, x.2.2, x.1.2⟩

@[simp] theorem keyOfFactors_factors (k : Key) : keyOfFactors (factors k) = k := rfl
@[simp] theorem factors_keyOfFactors (x : (Residue × Residue) × (Residue × Residue)) :
    factors (keyOfFactors x) = x := rfl

theorem isInvertible_keyOfFactors (u v : Residue × Residue) : (keyOfFactors (u, v)).isInvertible = true ↔
    Nat.gcd (u.1 * u.2 - v.1 * v.2).val 26 = 1 := by
  rw [isInvertible_iff, det_eq_sub, keyOfFactors]

/-- The enumeration lists every key once (R15). -/
theorem bijective_factors_keyAt : Function.Bijective fun i : Fin keySpace => factors (keyAt i) := by
  refine Function.bijective_iff_has_inverse.2
    ⟨fun x => ⟨(keyOfFactors x).index, index_lt_keySpace _⟩, fun i => Fin.ext ?_, fun x => ?_⟩
  · exact index_keyAt i.isLt
  · exact congrArg factors (keyAt_index _)

/-- The count, key by key. -/
theorem invertibleBelow_eq_sum (n : Nat) :
    invertibleBelow n = ∑ i : Fin n, if (keyAt i).isInvertible = true then 1 else 0 := by
  rw [← Finset.sum_range fun i => if (keyAt i).isInvertible = true then 1 else 0, ← Finset.card_filter,
    ← Nat.count_eq_card_filter_range, Nat.count, invertibleBelow, ← List.countP_eq_length_filter]
  simp only [Bool.decide_eq_true]

/-- The count as a sum over the two products of the determinant. -/
theorem invertibleBelow_keySpace_eq_sum : invertibleBelow keySpace =
    ∑ p, productCount p * ∑ q, productCount q * if Nat.gcd (p - q : Residue).val 26 = 1 then 1 else 0 := by
  calc invertibleBelow keySpace
      = ∑ x, if (keyOfFactors x).isInvertible = true then 1 else 0 := by
        rw [invertibleBelow_eq_sum]
        exact Fintype.sum_bijective _ bijective_factors_keyAt _ _ fun _ => rfl
    _ = ∑ u : Residue × Residue, ∑ v : Residue × Residue,
          if Nat.gcd (u.1 * u.2 - v.1 * v.2).val 26 = 1 then 1 else 0 := by
        rw [Fintype.sum_prod_type]
        simp only [isInvertible_keyOfFactors]
    _ = ∑ u : Residue × Residue, ∑ q, productCount q * if Nat.gcd (u.1 * u.2 - q).val 26 = 1 then 1 else 0 :=
        Finset.sum_congr rfl fun u _ =>
          sum_product fun q => if Nat.gcd (u.1 * u.2 - q : Residue).val 26 = 1 then 1 else 0
    _ = _ := sum_product fun p => ∑ q, productCount q * if Nat.gcd (p - q : Residue).val 26 = 1 then 1 else 0

theorem invertibleBelow_keySpace_eq : invertibleBelow keySpace = 157248 := by
  rw [invertibleBelow_keySpace_eq_sum]
  simp only [productCount_eq]
  decide

end Sys2Proof.Laws
end

section
/-! The algebra commands as completions (spec/41_modular_algebra.md R121, R124, R127, R130, R133): which outcome each
case has, and what a result register reads back. -/

namespace Sys2Proof.Laws

open Sys2Proof Sys2Proof.Machine

/-! ## Result registers (R85) -/

theorem wordOfInt_toInt {z : Int} (hlo : -2 ^ 31 ≤ z) (hhi : z < 2 ^ 31) : (wordOfInt z).toInt = z :=
  BitVec.toInt_ofInt_eq_self (by decide) hlo hhi

theorem wordOfNat_residue_toNat (r : Residue) : (wordOfNat r.val).toNat = r.val := wordOfNat_toNat (by omega)

/-- DET's result as the host reads it (R126, R127). -/
theorem wordOfNat_det_toNat (k : Key) : ((wordOfNat k.det.val).toNat : Int) =
    ((k.a.val : Int) * k.d.val - (k.b.val : Int) * k.c.val) % 26 := by
  rw [wordOfNat_residue_toNat, det_val]

/-! ## Outcomes -/

theorem exec_egcd (s : State) : exec .egcd s =
    succeed (((s.setRes0 (wordOfNat (egcd s.opa.toNat s.opb.toNat).1)).setRes1
      (wordOfInt (egcd s.opa.toNat s.opb.toNat).2.1)).setRes2 (wordOfInt (egcd s.opa.toNat s.opb.toNat).2.2)) := rfl

theorem exec_det (s : State) : exec .det s = succeed (s.setRes0 (wordOfNat s.key.det.val)) := rfl

theorem exec_invchk (s : State) : exec .invchk s =
    succeed ((s.setRes0 (if s.key.isInvertible then 1#32 else 0#32)).setRes1 (wordOfNat s.key.det.val)) := rfl

section Cases

variable {s : State}

theorem exec_modinv_of_lt (h : s.opb.toNat < 2) : exec .modinv s = raise .badOperand s := if_pos h

theorem exec_modinv_of_none (hm : 2 ≤ s.opb.toNat) (h : modinv s.opa.toNat s.opb.toNat = none) :
    exec .modinv s = raise .noInverse s := by
  rw [exec, execModinv, State.operandA, State.operandB, if_neg (Nat.not_lt.2 hm), h]

theorem exec_modinv_of_some (hm : 2 ≤ s.opb.toNat) {r : Nat} (h : modinv s.opa.toNat s.opb.toNat = some r) :
    exec .modinv s = succeed (s.setRes0 (wordOfNat r)) := by
  rw [exec, execModinv, State.operandA, State.operandB, if_neg (Nat.not_lt.2 hm), h]

theorem exec_invert_of_none (h : s.key.invert = none) : exec .invert s = raise .notInvertible s := by
  rw [exec, execInvert, h]

theorem exec_invert_of_some {k : Key} {di : Nat} (hk : s.key.invert = some k)
    (hdi : modinv s.key.det.val 26 = some di) : exec .invert s =
      succeed (((s.setRes0 k.pack).setRes1 (wordOfNat s.key.det.val)).setRes2 (wordOfNat di)) := by
  rw [exec, execInvert, hk, hdi]

end Cases

end Sys2Proof.Laws
end

section
/-! The obligations of spec/41_modular_algebra.md: the functions (R120 to R132) and the commands EGCD, MODINV, DET,
INVCHK and INVERT (R121, R124, R127, R130, R133). -/

namespace Sys2Proof.Proofs

open Sys2Proof Sys2Proof.Machine Sys2Proof.Laws

/-! ## The functions -/

/-- Settles O11: the fuel of egcd is always enough. -/
theorem egcdIsTheEuclideanRecursion : Obligations.EgcdIsTheEuclideanRecursion :=
  ⟨egcd_zero_left, fun _ b ha => ⟨egcd_of_pos ha b, Nat.mod_lt b ha⟩⟩

/-- Settles O12: Bézout and the bounds by Euclid's induction, the step count by Lamé's bound. -/
theorem egcdMeetsItsContract : Obligations.EgcdMeetsItsContract := by
  refine ⟨fun a b ha hb => ?_, egcd_zero_left, fun a ha => egcd_of_dvd ha (Nat.zero_mod a),
    fun a ha => egcd_of_dvd ha (Nat.mod_self a), egcd_zero_left 0⟩
  obtain ⟨hx, hy⟩ := egcd_natAbs_le a b
  have hg : (egcd a b).1 ≤ max a b := by
    rw [egcd_fst]
    obtain rfl | ha := Nat.eq_zero_or_pos a
    · rw [Nat.gcd_zero_left]
      exact le_max_right 0 b
    · exact le_max_of_le_left (Nat.gcd_le_left b ha)
  exact ⟨egcd_bezout a b, egcd_fst a b, by omega, by omega, by omega, by omega, by omega, by omega, by omega,
    egcdSteps_le ha b⟩

/-- Settles O14: a result is an inverse below m, and the only one. -/
theorem modinvIsTheUniqueInverse : Obligations.ModinvIsTheUniqueInverse :=
  fun a m hm => ⟨modinv_eq_none_iff a m, fun _ h => (modinv_eq_some_iff hm).1 h,
    fun _ hlt h => (modinv_eq_some_iff hm).2 ⟨hlt, h⟩⟩

/-- Settles O18: the test is on the determinant alone, one of 26 residues. -/
theorem invertibleDeterminantsAndTheirInverses : Obligations.InvertibleDeterminantsAndTheirInverses :=
  ⟨isInvertible_iff, fun k => (isInvertible_iff k).trans (coprime_26_iff k.det), by decide⟩

/-- Settles O19: modinv fails exactly for a singular key, and the entries are the adjugate's. -/
theorem inverseKeyIsTheScaledAdjugate : Obligations.InverseKeyIsTheScaledAdjugate := by
  refine fun k => ⟨invert_eq_none, fun h => ?_⟩
  obtain ⟨di, hdi, hk⟩ := exists_invert h
  exact ⟨di, _, hdi, hk, residueOfInt_val _, residueOfInt_val _, residueOfInt_val _, residueOfInt_val _⟩

/-- Settles O21: the inverse key is the inverse matrix, which is two-sided and unique. -/
theorem invertLaws : Obligations.InvertLaws := by
  intro k hk
  obtain ⟨di, -, h⟩ := exists_invert ((isInvertible_iff k).1 hk)
  have hsymm := invert_symm h
  exact ⟨_, h, mul_entries_of_keyMatrix_mul_eq_one (keyMatrix_mul_of_invert h),
    mul_entries_of_keyMatrix_mul_eq_one (keyMatrix_mul_of_invert hsymm), hsymm, applyPair_invert h,
    isInvertible_of_invert hsymm, modinv_det_of_keyMatrix_mul (keyMatrix_mul_of_invert h)⟩

/-- Settles O22: the count by the two products of the determinant. -/
theorem invertibleKeyCount : Obligations.InvertibleKeyCount := invertibleBelow_keySpace_eq

/-! ## The commands -/

/-- Settles O13: the bounds of R122 fit the result registers, so each reads back as the value written. -/
theorem egcdCompletes : Obligations.EgcdCompletes := by
  intro s
  obtain ⟨hbez, hgcd, hg, -, -, hxlo, hxhi, hylo, hyhi, -⟩ :=
    egcdMeetsItsContract.1 s.opa.toNat s.opb.toNat (by omega) (by omega)
  have h0 := wordOfNat_toNat (n := (egcd s.opa.toNat s.opb.toNat).1) (by omega)
  have h1 := wordOfInt_toInt (z := (egcd s.opa.toNat s.opb.toNat).2.1) (by omega) (by omega)
  have h2 := wordOfInt_toInt (z := (egcd s.opa.toNat s.opb.toNat).2.2) (by omega) (by omega)
  refine ⟨_, exec_egcd s, rfl, fun _ => rfl, h0, h1, h2, ?_, h0.trans hgcd⟩
  rw [← h0, ← h1, ← h2] at hbez
  exact hbez

/-- Settles O15: the three cases are the modulus test and the outcome of modinv. -/
theorem modinvCompletesOrReportsItsError : Obligations.ModinvCompletesOrReportsItsError := by
  intro s
  refine ⟨exec_modinv_of_lt, fun hm hg => exec_modinv_of_none hm ((modinv_eq_none_iff ..).2 hg), fun hm hg => ?_⟩
  obtain ⟨r, hr⟩ := Option.ne_none_iff_exists'.1 fun hn => (modinv_eq_none_iff s.opa.toNat s.opb.toNat).1 hn hg
  obtain ⟨hlt, hinv⟩ := (modinv_eq_some_iff hm).1 hr
  have h0 : (wordOfNat r).toNat = r := wordOfNat_toNat (by omega)
  refine ⟨_, exec_modinv_of_some hm hr, rfl, fun _ => rfl, ?_⟩
  rw [← h0] at hlt hinv
  exact ⟨hlt, hinv⟩

/-- Settles O16: the result is the determinant as a word. -/
theorem detCompletes : Obligations.DetCompletes :=
  fun s => ⟨_, exec_det s, rfl, fun _ => rfl, wordOfNat_det_toNat s.key⟩

/-- Settles O17: RES1 is the determinant as a word, and RES0 the test of R128 on it. -/
theorem invchkCompletes : Obligations.InvchkCompletes := by
  refine fun s => ⟨_, exec_invchk s, rfl, fun _ => rfl, ?_, wordOfNat_det_toNat s.key⟩
  change (if s.key.isInvertible = true then 1#32 else 0#32) =
    if Nat.gcd (wordOfNat s.key.det.val).toNat 26 = 1 then 1#32 else 0#32
  simp only [wordOfNat_residue_toNat, isInvertible_iff]

/-- Settles O20: a singular key has no inverse, and otherwise the three results are the inverse's parts. -/
theorem invertCompletesOrReportsNotInvertible : Obligations.InvertCompletesOrReportsNotInvertible := by
  refine fun s => ⟨fun h => exec_invert_of_none (invert_eq_none h), fun h => ?_⟩
  obtain ⟨di, hdi, hk⟩ := exists_invert h
  refine ⟨_, _, exec_invert_of_some hk hdi, rfl, fun _ => rfl, hk, rfl, wordOfNat_residue_toNat _, ?_⟩
  have hlt : di < 26 := (modinv_26_eq_some_iff.1 hdi).1
  rw [hdi]
  exact congrArg some (wordOfNat_toNat (by omega)).symm

end Sys2Proof.Proofs
end

section
/-! The block transform (spec/42_cipher_transform.md R150 to R155): the transform pair by pair, the undoing by the
inverse key, and the outcomes of ENCRYPT and DECRYPT. -/

namespace Sys2Proof.Laws

open Sys2Proof Sys2Proof.Machine

/-! ## The transform of a stream (R150, R151) -/

@[simp] theorem apply_cons_cons (k : Key) (x y : Residue) (st : List Residue) :
    k.apply (x :: y :: st) = (k.applyPair x y).1 :: (k.applyPair x y).2 :: k.apply st := rfl

/-- What the recursion of the transform ends at: a stream that holds no pair. -/
theorem length_lt_two_of_no_pair : ∀ {st : List Residue}, (∀ x y st', st = x :: y :: st' → False) → st.length < 2
  | [], _ => Nat.two_pos
  | [_], _ => Nat.one_lt_two
  | x :: y :: st, h => (h x y st rfl).elim

/-- Pair i of the transformed stream is the map of pair i of the stream. -/
theorem apply_pair (k : Key) {st : List Residue} {i : Nat} {x y : Residue}
    (hx : st[2 * i]? = some x) (hy : st[2 * i + 1]? = some y) :
    (k.apply st)[2 * i]? = some (k.applyPair x y).1 ∧ (k.apply st)[2 * i + 1]? = some (k.applyPair x y).2 := by
  induction st using Key.apply.induct generalizing i with
  | case1 x' y' st ih =>
    cases i with
    | zero =>
      obtain rfl : x' = x := Option.some.inj hx
      obtain rfl : y' = y := Option.some.inj hy
      exact ⟨rfl, rfl⟩
    | succ i => exact ih hx hy
  | case2 st hst =>
    have hlt := length_lt_two_of_no_pair hst
    have hi := (List.getElem?_eq_some_iff.1 hy).1
    omega

/-- The transform under the inverse key undoes the transform, since the map of a pair does. -/
theorem apply_apply_of_invert {k l : Key} (h : k.invert = some l) {st : List Residue} (heven : st.length % 2 = 0) :
    l.apply (k.apply st) = st := by
  induction st using Key.apply.induct with
  | case1 x y st ih =>
    rw [List.length_cons, List.length_cons] at heven
    rw [apply_cons_cons, apply_cons_cons, applyPair_invert h, ih (by omega)]
  | case2 st hst =>
    have hlt := length_lt_two_of_no_pair hst
    obtain rfl : st = [] := List.length_eq_zero_iff.1 (by omega)
    rfl

/-- The success case of R131, for proofs that need no entry of the inverse. -/
theorem exists_invert_eq_some {k : Key} (h : Nat.gcd k.det.val 26 = 1) : ∃ l, k.invert = some l := by
  obtain ⟨_, _, hinv⟩ := exists_invert h
  exact ⟨_, hinv⟩

section Buffers

variable {s : State}

/-! ## The input stream and the output buffer -/

theorem stream_getElem? {i : Nat} (hi : i < s.len.toNat) : s.stream[i]? = some (res (s.byteAt (ibufAddr i))) := by
  have hrange : (List.range s.streamLen)[i]? = some i := List.getElem?_range hi
  rw [State.stream, List.getElem?_map, hrange, Option.map_some]

/-- The input stream of a state whose IBUF holds the residues of a stream. -/
theorem stream_eq_of_bytes {st : List Residue} (hlen : s.len.toNat = st.length)
    (h : ∀ (i : Nat) (hi : i < st.length), s.byteAt (ibufAddr i) = residueByte st[i]) : s.stream = st := by
  refine List.ext_getElem ((stream_length s).trans hlen) fun i _ hi => ?_
  rw [List.getElem_eq_iff, stream_getElem? (hlen ▸ hi), h i hi, res_residueByte]

theorem byteAt_storeObuf_of_getElem? {st : List Residue} {i : Nat} {r : Residue} (h : st[i]? = some r) :
    (s.storeObuf st).byteAt (obufAddr i) = residueByte r := by
  obtain ⟨hi, rfl⟩ := List.getElem?_eq_some_iff.1 h
  exact byteAt_storeObuf_inside s st i hi

/-- OBUF[2i] and OBUF[2i+1] after the transformed input stream is stored: the map of R14 on the residues of IBUF[2i]
and IBUF[2i+1]. -/
theorem byteAt_storeObuf_apply_pair (k : Key) {i : Nat} (hi : 2 * i + 1 < s.len.toNat) :
    ((s.storeObuf (k.apply s.stream)).byteAt (obufAddr (2 * i))).toNat =
      (k.a.val * ((s.byteAt (ibufAddr (2 * i))).toNat % 26) +
        k.b.val * ((s.byteAt (ibufAddr (2 * i + 1))).toNat % 26)) % 26 ∧
    ((s.storeObuf (k.apply s.stream)).byteAt (obufAddr (2 * i + 1))).toNat =
      (k.c.val * ((s.byteAt (ibufAddr (2 * i))).toNat % 26) +
        k.d.val * ((s.byteAt (ibufAddr (2 * i + 1))).toNat % 26)) % 26 := by
  obtain ⟨hfst, hsnd⟩ := apply_pair k (stream_getElem? (Nat.lt_of_succ_lt hi)) (stream_getElem? hi)
  rw [byteAt_storeObuf_of_getElem? hfst, byteAt_storeObuf_of_getElem? hsnd, residueByte_toNat, residueByte_toNat]
  exact ⟨rfl, rfl⟩

theorem apply_stream_length (k : Key) (heven : s.len.toNat % 2 = 0) : (k.apply s.stream).length = s.len.toNat := by
  have hlen : s.stream.length = s.len.toNat := stream_length s
  rw [apply_length k _ (hlen ▸ heven), hlen]

/-- The transform of the input stream is stored in OBUF[0 … LEN) only (R66). -/
theorem byteAt_storeObuf_apply_outside (k : Key) (heven : s.len.toNat % 2 = 0) {a : Nat}
    (h : a < obufAddr 0 ∨ obufAddr s.len.toNat ≤ a) : (s.storeObuf (k.apply s.stream)).byteAt a = s.byteAt a :=
  byteAt_storeObuf_outside s _ a (by rwa [apply_stream_length k heven])

/-! ## Outcomes of ENCRYPT and DECRYPT (R152, R155) -/

theorem badBlockLen_iff : s.badBlockLen = true ↔ s.cfg.ibufSize < s.len.toNat ∨ s.len.toNat % 2 ≠ 0 := by
  rw [State.badBlockLen, State.lenTooLong, Bool.or_eq_true, decide_eq_true_iff, decide_eq_true_iff]
  rfl

theorem not_badBlockLen_of (hle : s.len.toNat ≤ s.cfg.ibufSize) (heven : s.len.toNat % 2 = 0) :
    ¬ s.badBlockLen = true := by
  rw [badBlockLen_iff]
  omega

theorem exec_encrypt_of_bad (h : s.badBlockLen = true) : exec .encrypt s = raise .badLength s := if_pos h

theorem exec_encrypt_of_good (h : ¬ s.badBlockLen = true) :
    exec .encrypt s = succeed (s.storeObuf (s.key.apply s.stream)) := if_neg h

theorem exec_decrypt_of_bad (h : s.badBlockLen = true) : exec .decrypt s = raise .badLength s := if_pos h

theorem exec_decrypt_of_singular (h : ¬ s.badBlockLen = true) (hk : s.key.invert = none) :
    exec .decrypt s = raise .notInvertible s := by
  rw [exec, execDecrypt, if_neg h, hk]

theorem exec_decrypt_of_invert (h : ¬ s.badBlockLen = true) {k : Key} (hk : s.key.invert = some k) :
    exec .decrypt s = succeed (s.storeObuf (k.apply s.stream)) := by
  rw [exec, execDecrypt, if_neg h, hk]

end Buffers

end Sys2Proof.Laws
end

section
/-! The obligations of spec/42_cipher_transform.md: the transform under a key and its inverse (R151), ENCRYPT (R152),
DECRYPT (R155), and their round trip. -/

namespace Sys2Proof.Proofs

open Sys2Proof Sys2Proof.Machine Sys2Proof.Laws

/-- Settles O25: without an error ENCRYPT stores the transformed input stream, pair by pair. -/
theorem encryptCompletesOrReportsBadLength : Obligations.EncryptCompletesOrReportsBadLength := by
  refine fun s => ⟨fun hbad => exec_encrypt_of_bad (badBlockLen_iff.2 hbad), fun hle heven => ?_⟩
  exact ⟨_, exec_encrypt_of_good (not_badBlockLen_of hle heven), rfl,
    fun i hi => byteAt_storeObuf_apply_pair s.key hi, fun a ha => byteAt_storeObuf_apply_outside s.key heven ha⟩

/-- Settles O26: the length check comes first, then the inverse key, under which the input stream is transformed. -/
theorem decryptCompletesOrReportsItsError : Obligations.DecryptCompletesOrReportsItsError := by
  refine fun s => ⟨fun hbad => exec_decrypt_of_bad (badBlockLen_iff.2 hbad),
    fun hle heven hk => exec_decrypt_of_singular (not_badBlockLen_of hle heven) (invert_eq_none hk),
    fun hle heven hk => ?_⟩
  obtain ⟨k, hinv⟩ := exists_invert_eq_some hk
  exact ⟨_, k, hinv, exec_decrypt_of_invert (not_badBlockLen_of hle heven) hinv, rfl,
    fun i hi => byteAt_storeObuf_apply_pair k hi, fun a ha => byteAt_storeObuf_apply_outside k heven ha⟩

/-- Settles O27: the transform under the inverse key undoes the transform, and inverting a key is symmetric. -/
theorem transformsUndoEachOther : Obligations.TransformsUndoEachOther :=
  fun _ _ _ hinv heven => ⟨apply_apply_of_invert hinv heven, apply_apply_of_invert (invert_symm hinv) heven⟩

/-- Settles O28: the input stream of DECRYPT is what ENCRYPT stored, and so its transform is ENCRYPT's input stream. -/
theorem encryptThenDecryptRestoresThePlaintext : Obligations.EncryptThenDecryptRestoresThePlaintext := by
  intro s t u hk hle heven ht hcfg hkey hlen hcopy
  obtain ⟨l, hinv⟩ := exists_invert_eq_some hk
  have hcipher : u.stream = s.key.apply s.stream := by
    rw [exec_encrypt_of_good (not_badBlockLen_of hle heven), succeed_next_iff] at ht
    have happly := apply_stream_length s.key heven
    refine stream_eq_of_bytes (by rw [hlen, happly]) fun i hi => ?_
    rw [hcopy i (happly ▸ hi), ht, finish_byteAt, byteAt_storeObuf_inside s _ i hi]
  have hdec := exec_decrypt_of_invert (s := u) (not_badBlockLen_of (by rwa [hlen, hcfg]) (by rwa [hlen])) (hkey ▸ hinv)
  rw [hcipher, apply_apply_of_invert hinv ((stream_length s).symm ▸ heven)] at hdec
  refine ⟨_, hdec, rfl, fun i hi => ?_⟩
  rw [finish_byteAt, byteAt_storeObuf_of_getElem? (stream_getElem? hi), residueByte_toNat, res_val]

end Sys2Proof.Proofs
end

section
/-! The plausibility scorer (spec/43_scorer.md R170 to R175): the scan of a pattern, the counts over a list of patterns,
what the score is bounded by and when it is 0, and the outcomes of SCORE. -/

namespace Sys2Proof.Laws

open Sys2Proof Sys2Proof.Machine

/-! ## The scan of one pattern (R170) -/

/-- Residues still to pass over are dropped. -/
theorem countFrom_eq_count_drop (p : List Residue) (skip : Nat) (st : List Residue) :
    countFrom p skip st = count (st.drop skip) p := by
  induction st generalizing skip with
  | nil => rw [List.drop_nil, count, countFrom, countFrom]
  | cons x st ih =>
    cases skip with
    | zero => rfl
    | succ skip => exact ih skip

@[simp] theorem count_nil (p : List Residue) : count [] p = 0 := rfl

theorem count_cons_of_prefix {p st : List Residue} {x : Residue} (hp : p ≠ []) (h : p <+: x :: st) :
    count (x :: st) p = 1 + count ((x :: st).drop p.length) p := by
  have hlen : p.length = p.length - 1 + 1 := (Nat.succ_pred_eq_of_pos (List.length_pos_iff.2 hp)).symm
  rw [count, countFrom, if_pos (List.isPrefixOf_iff_prefix.2 h), countFrom_eq_count_drop, Nat.add_comm, hlen]
  rfl

theorem count_cons_of_not_prefix {p st : List Residue} {x : Residue} (h : ¬ p <+: x :: st) :
    count (x :: st) p = count st p := by
  rw [count, countFrom, if_neg (mt List.isPrefixOf_iff_prefix.1 h)]
  rfl

/-- A pattern is counted exactly where it occurs. -/
theorem count_eq_zero_iff {p : List Residue} (hp : p ≠ []) (st : List Residue) :
    count st p = 0 ↔ ¬ p <:+: st := by
  induction st with
  | nil => simp [hp]
  | cons x st ih =>
    by_cases h : p <+: x :: st
    · simp [count_cons_of_prefix hp h, h.isInfix]
    · simp [count_cons_of_not_prefix h, List.infix_cons_iff, h, ih]

/-- The counted matches do not overlap, so together they are no longer than the stream. -/
theorem count_mul_length_le (st p : List Residue) : count st p * p.length ≤ st.length := by
  obtain rfl | hp := eq_or_ne p []
  · exact Nat.zero_le _
  induction hn : st.length using Nat.strong_induction_on generalizing st with
  | _ n ih =>
    cases st with
    | nil => simp
    | cons x st =>
      by_cases h : p <+: x :: st
      · have hpos := List.length_pos_iff.2 hp
        have hle := h.length_le
        have hrest := ih _ (by omega) ((x :: st).drop p.length) List.length_drop
        rw [count_cons_of_prefix hp h, Nat.add_mul, Nat.one_mul]
        omega
      · rw [count_cons_of_not_prefix h]
        exact (ih st.length (by simp [← hn]) st rfl).trans (by simp [← hn])

/-- A pattern of one residue counts as the library counts the residue. -/
theorem count_singleton (st : List Residue) (v : Residue) : count st [v] = st.count v := by
  induction st with
  | nil => rfl
  | cons x st ih =>
    obtain rfl | h := eq_or_ne v x
    · rw [count_cons_of_prefix (by simp) (by simp), List.count_cons_self, ← ih, Nat.add_comm]
      rfl
    · rw [count_cons_of_not_prefix (by simpa using h), List.count_cons_of_ne h.symm, ih]

/-! ## The counts over a list of patterns (R171) -/

@[simp] theorem countAll_nil (st : List Residue) : countAll st [] = 0 := rfl

@[simp] theorem countAll_cons (st p : List Residue) (ps : List (List Residue)) :
    countAll st (p :: ps) = count st p + countAll st ps := by
  rw [countAll, List.map_cons, List.sum_cons, countAll]

theorem countAll_eq_zero_iff {ps : List (List Residue)} (hps : ∀ p ∈ ps, p ≠ []) (st : List Residue) :
    countAll st ps = 0 ↔ ∀ p ∈ ps, ¬ p <:+: st := by
  induction ps with
  | nil => simp
  | cons p ps ih =>
    obtain ⟨hp, hps⟩ := List.forall_mem_cons.1 hps
    rw [countAll_cons, Nat.add_eq_zero_iff, count_eq_zero_iff hp, ih hps, List.forall_mem_cons]

/-- The bound of `count_mul_length_le` summed over a list, over a common multiple `m` of its lengths. -/
theorem mul_countAll_le {m : Nat} {ps : List (List Residue)} (hps : ∀ p ∈ ps, p.length ∣ m) (st : List Residue) :
    m * countAll st ps ≤ (ps.map (m / ·.length)).sum * st.length := by
  induction ps with
  | nil => simp
  | cons p ps ih =>
    obtain ⟨hp, hps⟩ := List.forall_mem_cons.1 hps
    have hcount : m * count st p ≤ m / p.length * st.length := by
      calc m * count st p = m / p.length * (count st p * p.length) := by
            rw [Nat.mul_comm (count st p), ← Nat.mul_assoc, Nat.div_mul_cancel hp]
        _ ≤ m / p.length * st.length := Nat.mul_le_mul_left _ (count_mul_length_le st p)
    rw [countAll_cons, List.map_cons, List.sum_cons, Nat.mul_add, Nat.add_mul]
    exact Nat.add_le_add hcount (ih hps)

/-- A residue is at most one of the five vowels. -/
theorem countAll_vowels_le (st : List Residue) : countAll st vowels ≤ st.length := by
  calc countAll st vowels = ∑ v ∈ ({0, 4, 8, 14, 20} : Finset Residue), (st : Multiset Residue).count v := by
        simp [vowels, count_singleton]
    _ ≤ ∑ v : Residue, (st : Multiset Residue).count v := Finset.sum_le_univ_sum_of_nonneg fun _ => Nat.zero_le _
    _ = st.length := Multiset.sum_count_eq_card fun v _ => Finset.mem_univ v

/-! ## The score (R172, R173) -/

/-- The bound of R173: per residue at most 49/12 words, one vowel and 5 digrams, which weigh less than 52. -/
theorem score_le (st : List Residue) : score st ≤ 52 * st.length := by
  have hwords : 12 * countAll st commonWords ≤ 49 * st.length := mul_countAll_le (by decide) st
  have hvowels := countAll_vowels_le st
  have hdigrams : 2 * countAll st digrams ≤ 10 * st.length := mul_countAll_le (by decide) st
  rw [score]
  omega

/-- Every pattern of the three lists holds a vowel, but for TH. -/
theorem vowel_mem_or_eq_TH : ∀ p ∈ commonWords ++ vowels ++ digrams,
    (∃ v ∈ ([0, 4, 8, 14, 20] : List Residue), v ∈ p) ∨ p = [19, 7] := by decide

theorem score_eq_zero_iff (st : List Residue) :
    score st = 0 ↔ ∀ p ∈ commonWords ++ vowels ++ digrams, ¬ p <:+: st := by
  rw [List.forall_mem_append, List.forall_mem_append, ← countAll_eq_zero_iff (by decide),
    ← countAll_eq_zero_iff (by decide), ← countAll_eq_zero_iff (by decide), score]
  omega

theorem score_eq_zero_iff_no_vowel_no_TH (st : List Residue) :
    score st = 0 ↔ (∀ v ∈ [0, 4, 8, 14, 20], (v : Residue) ∉ st) ∧ ¬ ([19, 7] : List Residue) <:+: st := by
  rw [score_eq_zero_iff]
  refine ⟨fun h => ⟨fun v hv hmem => ?_, h [19, 7] (by decide)⟩, fun ⟨hvowel, hTH⟩ p hp hinfix => ?_⟩
  · have hpat : [v] ∈ vowels := List.mem_map_of_mem (f := fun v : Residue => [v]) hv
    exact h [v] (by simp [hpat]) ((List.singleton_infix_iff v st).2 hmem)
  · obtain ⟨v, hv, hmem⟩ | rfl := vowel_mem_or_eq_TH p hp
    · exact hvowel v hv (hinfix.subset hmem)
    · exact hTH hinfix

/-! ## Outcomes of SCORE (R175) -/

theorem exec_score_of_gt {s : State} (h : s.cfg.ibufSize < s.len.toNat) : exec .score s = raise .badLength s :=
  if_pos (decide_eq_true h)

theorem exec_score_of_le {s : State} (h : s.len.toNat ≤ s.cfg.ibufSize) :
    exec .score s = succeed (s.setRes0 (wordOfNat (score s.stream))) :=
  if_neg (mt of_decide_eq_true (Nat.not_lt.2 h))

/-- The score of the input stream fits a result register. -/
theorem wordOfNat_score_toNat (s : State) : (wordOfNat (score s.stream)).toNat = score s.stream := by
  have hle := score_le s.stream
  have hlen : s.stream.length = s.len.toNat := stream_length s
  exact wordOfNat_toNat (by omega)

end Sys2Proof.Laws
end

section
/-! The obligations of spec/43_scorer.md: the scan (R170), the score and its properties (R172, R173), and SCORE
(R175). -/

namespace Sys2Proof.Proofs

open Sys2Proof Sys2Proof.Machine Sys2Proof.Laws

/-- Settles O29: a pattern longer than the stream does not occur in it, and otherwise the scan is at a match or not. -/
theorem countIsLeftmostNonOverlapping : Obligations.CountIsLeftmostNonOverlapping := by
  refine fun st p hp => ⟨fun hlt => (count_eq_zero_iff hp st).2 fun h => h.length_le.not_gt hlt, fun hle htake => ?_,
    fun hle htake => ?_⟩
  all_goals
    obtain ⟨x, st, rfl⟩ := List.exists_cons_of_length_pos ((List.length_pos_iff.2 hp).trans_le hle)
  · exact count_cons_of_prefix hp (List.prefix_iff_eq_take.2 htake.symm)
  · exact count_cons_of_not_prefix fun h => htake (List.prefix_iff_eq_take.1 h).symm

/-- Settles O30: the stream is the state's input stream, whose score fits RES0. -/
theorem scoreCompletesOrReportsBadLength : Obligations.ScoreCompletesOrReportsBadLength := by
  refine fun s _ => ⟨exec_score_of_gt, fun hle => ?_⟩
  refine ⟨_, s.stream, exec_score_of_le hle, rfl, fun a => ?_, stream_length s, fun i hi => ?_, ?_⟩
  · rw [finish_byteAt, setRes0_byteAt]
  · rw [(List.getElem_eq_iff hi).2 (stream_getElem? (hi.trans_eq (stream_length s))), res_val]
  · change (wordOfNat (score s.stream)).toNat = _
    rw [wordOfNat_score_toNat]
    simp only [score, commonWords, vowels, digrams, countAll_cons, countAll_nil]
    omega

/-- Settles O31: the bound counts matches that do not overlap, and every pattern of the lists but TH holds a vowel. The
stream IN shows that a reversal may change the score. -/
theorem scoreProperties : Obligations.ScoreProperties := by
  refine ⟨fun st => ?_, by decide, score_eq_zero_iff_no_vowel_no_TH, fun st => ⟨score_le st, fun hlen => ?_⟩,
    [8, 13], by decide⟩
  · rw [score, Nat.one_mul]
    rfl
  · have hle := score_le st
    omega

end Sys2Proof.Proofs
end

section
/-! Containment (spec/44_search.md R194) and the ranking of candidates (R195): the ranked list is the one list in the
order, and the best of lists that were each cut to their best are the best of the whole lists (R207). -/

namespace Sys2Proof.Laws

open Sys2Proof Sys2Proof.Machine

/-! ## Containment (R194) -/

theorem contains_iff_infix (t p : List Residue) : contains t p = true ↔ p <:+: t := by
  induction t with
  | nil => rw [contains, List.isEmpty_iff, List.infix_nil]
  | cons x t ih => rw [contains, Bool.or_eq_true, List.isPrefixOf_iff_prefix, ih, List.infix_cons_iff]

theorem infix_iff_take_drop {α : Type} (t p : List α) :
    p <:+: t ↔ ∃ i, i + p.length ≤ t.length ∧ (t.drop i).take p.length = p := by
  constructor
  · rintro ⟨before, after, rfl⟩
    exact ⟨before.length, by simp, by simp⟩
  · rintro ⟨i, -, h⟩
    rw [← h]
    exact (List.take_prefix ..).isInfix.trans (List.drop_suffix i t).isInfix

/-! ## The order (R195) -/

/-- The order of R195: score descending, then enumeration index ascending. -/
def Outranks (x y : Candidate) : Prop := y.score < x.score ∨ (x.score = y.score ∧ x.idx < y.idx)

theorem before_iff (x y : Candidate) : x.before y = true ↔ Outranks x y := by
  simp [Candidate.before, Outranks]

theorem Outranks.trans {x y z : Candidate} (hxy : Outranks x y) (hyz : Outranks y z) : Outranks x z := by
  unfold Outranks at *
  omega

theorem Outranks.asymm {x y : Candidate} (hxy : Outranks x y) : ¬ Outranks y x := by
  unfold Outranks at *
  omega

/-- The order is total on candidates with different indices. -/
theorem outranks_of_not {x y : Candidate} (hidx : x.idx ≠ y.idx) (h : ¬ Outranks x y) : Outranks y x := by
  unfold Outranks at *
  omega

/-! ## The ranked list (R195) -/

theorem insertRanked_pairwise {x : Candidate} {ys : List Candidate} (hys : ys.Pairwise Outranks)
    (hx : ∀ y ∈ ys, x.idx ≠ y.idx) : (insertRanked x ys).Pairwise Outranks := by
  induction ys with
  | nil => exact List.pairwise_singleton Outranks x
  | cons y ys ih =>
    obtain ⟨hy, hys'⟩ := List.pairwise_cons.1 hys
    obtain ⟨hxy, hx⟩ := List.forall_mem_cons.1 hx
    rw [insertRanked]
    split
    next h =>
      have hxy := (before_iff x y).1 h
      exact List.pairwise_cons.2 ⟨List.forall_mem_cons.2 ⟨hxy, fun z hz => hxy.trans (hy z hz)⟩, hys⟩
    next h =>
      have hyx := outranks_of_not hxy (mt (before_iff x y).2 h)
      refine List.pairwise_cons.2 ⟨fun z hz => ?_, ih hys' hx⟩
      obtain rfl | hz := List.mem_cons.1 ((insertRanked_perm x ys).mem_iff.1 hz)
      · exact hyx
      · exact hy z hz

theorem ranking_perm (kept : List Candidate) : (ranking kept).Perm kept := by
  induction kept with
  | nil => exact List.Perm.nil
  | cons x kept ih => exact (insertRanked_perm x _).trans (ih.cons x)

section DistinctIndices

variable {kept : List Candidate} (hidx : (kept.map Candidate.idx).Nodup)

include hidx

theorem ranking_pairwise : (ranking kept).Pairwise Outranks := by
  induction kept with
  | nil => exact List.Pairwise.nil
  | cons x kept ih =>
    rw [List.map_cons, List.nodup_cons] at hidx
    obtain ⟨hx, hidx⟩ := hidx
    refine insertRanked_pairwise (ih hidx) fun y hy hxy => hx ?_
    rw [hxy]
    exact List.mem_map_of_mem ((ranking_perm kept).mem_iff.1 hy)

theorem eq_ranking_of_perm {l : List Candidate} (hperm : l.Perm kept) (hl : l.Pairwise Outranks) : l = ranking kept :=
  (hperm.trans (ranking_perm kept).symm).eq_of_pairwise (fun _ _ _ _ hxy hyx => (hxy.asymm hyx).elim) hl
    (ranking_pairwise hidx)

/-- The best candidates do not depend on the order they come in. -/
theorem best_perm {kept' : List Candidate} (n : Nat) (hperm : kept.Perm kept') : best n kept = best n kept' := by
  have hidx' := (hperm.map Candidate.idx).nodup_iff.1 hidx
  rw [best_eq_take_ranking, best_eq_take_ranking,
    eq_ranking_of_perm hidx' ((ranking_perm kept).trans hperm) (ranking_pairwise hidx)]

end DistinctIndices

/-! ## The best of lists cut to their best (R207) -/

/-- A candidate that `n` candidates of a ranked list outrank finds its place after the first `n`. -/
theorem take_insertRanked_of_outranked {x : Candidate} {ys : List Candidate} (hys : ys.Pairwise Outranks) {n : Nat}
    (hn : n ≤ ys.countP (·.before x)) : (insertRanked x ys).take n = ys.take n := by
  induction ys generalizing n with
  | nil => rw [Nat.le_zero.1 hn, List.take_zero, List.take_zero]
  | cons y ys ih =>
    obtain ⟨hy, hys⟩ := List.pairwise_cons.1 hys
    cases n with
    | zero => rw [List.take_zero, List.take_zero]
    | succ n =>
      rw [insertRanked]
      split
      next h =>
        have hxy := (before_iff x y).1 h
        have hnone : ¬ 0 < (y :: ys).countP (·.before x) := by
          rw [List.countP_pos_iff]
          rintro ⟨z, hz, hzx⟩
          have hzx := (before_iff z x).1 hzx
          obtain rfl | hz := List.mem_cons.1 hz
          · exact hxy.asymm hzx
          · exact (hxy.trans (hy z hz)).asymm hzx
        omega
      next =>
        rw [List.countP_cons] at hn
        rw [List.take_succ_cons, List.take_succ_cons, ih hys (by split at hn <;> omega)]

/-- Candidates that `n` others outrank can be left out of the best `n`. -/
theorem best_append_of_outranked {n : Nat} {dropped kept : List Candidate}
    (hidx : ((dropped ++ kept).map Candidate.idx).Nodup)
    (hn : ∀ x ∈ dropped, n ≤ kept.countP (·.before x)) : best n (dropped ++ kept) = best n kept := by
  induction dropped with
  | nil => rfl
  | cons x dropped ih =>
    obtain ⟨hx, hn⟩ := List.forall_mem_cons.1 hn
    have hidx : ((dropped ++ kept).map Candidate.idx).Nodup := hidx.of_cons
    have hle : n ≤ (ranking (dropped ++ kept)).countP (·.before x) := by
      rw [(ranking_perm _).countP_eq, List.countP_append]
      omega
    calc best n (x :: dropped ++ kept) = (insertRanked x (ranking (dropped ++ kept))).take n :=
          best_eq_take_ranking n _
      _ = (ranking (dropped ++ kept)).take n := take_insertRanked_of_outranked (ranking_pairwise hidx) hle
      _ = best n kept := by rw [← best_eq_take_ranking, ih hidx hn]

/-- What a list loses when it is cut to its best `n`, `n` candidates outrank. -/
theorem le_countP_best {kept : List Candidate} (hidx : (kept.map Candidate.idx).Nodup) {n : Nat} {x : Candidate}
    (hx : x ∈ (ranking kept).drop n) : n ≤ (best n kept).countP (·.before x) := by
  have hpair := ranking_pairwise hidx
  rw [← List.take_append_drop n (ranking kept)] at hpair
  obtain ⟨-, -, hbefore⟩ := List.pairwise_append.1 hpair
  have hlen : n ≤ (ranking kept).length := by
    have hpos := List.length_pos_of_mem hx
    rw [List.length_drop] at hpos
    omega
  rw [best_eq_take_ranking, List.countP_eq_length.2 fun y hy => (before_iff y x).2 (hbefore y hy x hx),
    List.length_take_of_le hlen]

/-- It is enough to keep of each list its best `n`. -/
theorem best_flatMap_best (n : Nat) (lists : List (List Candidate)) (hidx : (lists.flatten.map Candidate.idx).Nodup) :
    best n (lists.flatMap (best n)) = best n lists.flatten := by
  have hperm : (lists.flatMap (fun kept => (ranking kept).drop n) ++ lists.flatMap (best n)).Perm lists.flatten := by
    refine (List.flatMap_append_perm ..).trans ?_
    rw [← List.flatMap_id (L := lists)]
    refine List.Perm.flatMap_left lists fun kept _ => ?_
    rw [best_eq_take_ranking]
    exact List.perm_append_comm.trans ((List.take_append_drop n _).symm ▸ ranking_perm kept)
  have hidx' := (hperm.map Candidate.idx).nodup_iff.2 hidx
  rw [← best_perm hidx' n hperm, best_append_of_outranked hidx']
  intro x hx
  obtain ⟨kept, hkept, hx⟩ := List.mem_flatMap.1 hx
  have hcut := le_countP_best (hidx.sublist ((List.sublist_flatten_of_mem hkept).map _)) hx
  exact hcut.trans (List.Sublist.countP_le
    (List.flatMap_def ▸ List.sublist_flatten_of_mem (List.mem_map_of_mem hkept)))

end Sys2Proof.Laws
end

section
/-! The search function by lists of indices (spec/44_search.md R190 to R196): what it retains and counts, with and
without a match, and the merge of the lanes (R204 to R207). -/

namespace Sys2Proof.Laws

open Sys2Proof Sys2Proof.Machine

/-- The candidates that a search retains among the indices `js`. -/
def retainedIn (st : List Residue) (p : Option (List Residue)) (scoring : Bool) (js : List Nat) : List Candidate :=
  js.filterMap fun j => (evaluate st p scoring j).candidate?

/-- How many of the indices `js` are invertible keys. -/
def invertibleIn (js : List Nat) : Nat := (js.filter fun j => (keyAt j).isInvertible).length

section Search

variable {st : List Residue} {p : Option (List Residue)} {scoring : Bool}

/-! ## The evaluation of one index -/

theorem evaluate_of_contains {q : List Residue} {i : Nat} {k : Key} (hk : (keyAt i).invert = some k)
    (hq : contains (k.apply st) q = true) : evaluate st (some q) scoring i = .hit (k.apply st) := by
  simp [evaluate, hk, earlyExit, hq]

/-- An index that is no match is no hit. -/
theorem not_isHit_of {i : Nat} (h : ∀ q, p = some q → ¬ matchesAt st q i) :
    (evaluate st p scoring i).isHit = false := by
  refine Bool.eq_false_iff.2 fun hit => ?_
  obtain ⟨q, hq, hmatch⟩ := (evaluate_isHit_iff st p scoring i).1 hit
  exact h q hq hmatch

theorem not_isHit_of_no_pattern (i : Nat) : (evaluate st none scoring i).isHit = false :=
  not_isHit_of nofun

theorem isHit_iff (e : Evaluation) : e.isHit = true ↔ ∃ t, e = .hit t := by
  cases e <;> simp [Evaluation.isHit]

theorem evaluate_of_singular {j : Nat} (h : (keyAt j).isInvertible = false) :
    evaluate st p scoring j = .singular := by
  rw [← evaluate_isInvertible st p scoring j] at h
  generalize evaluate st p scoring j = e at h ⊢
  cases e with
  | singular => rfl
  | hit | scored => cases h

/-- A retained candidate is the one of its index. -/
theorem idx_of_candidate? {j : Nat} {c : Candidate} (h : (evaluate st p scoring j).candidate? = some c) : c.idx = j := by
  unfold evaluate at h
  split at h
  · cases h
  · dsimp only at h
    split at h
    · cases h
    · split at h
      · injection h with h
        rw [← h]
      · cases h

/-! ## What is retained and counted -/

theorem length_filter_isInvertible (js : List Nat) :
    ((js.map (evaluate st p scoring)).filter Evaluation.isInvertible).length = invertibleIn js := by
  simp only [List.filter_map, Function.comp_def, evaluate_isInvertible, List.length_map, invertibleIn]

theorem filterMap_candidate? (js : List Nat) :
    (js.map (evaluate st p scoring)).filterMap Evaluation.candidate? = retainedIn st p scoring js :=
  List.filterMap_map

theorem retainedIn_unscored (js : List Nat) : retainedIn st p false js = [] :=
  List.filterMap_eq_nil_iff.2 fun _ _ => evaluate_candidate?_unscored ..

/-- Among indices without a match a scoring search retains the candidates of R190. -/
theorem retainedIn_scored {m : Nat} (h : ∀ j, j < m → (evaluate st p true j).isHit = false) :
    retainedIn st p true (List.range m) = retainedBelow st m :=
  List.filterMap_congr fun j hj => evaluate_candidate? st p j (h j (List.mem_range.1 hj))

theorem retainedIn_idx_nodup {js : List Nat} (h : js.Nodup) :
    ((retainedIn st p scoring js).map Candidate.idx).Nodup := by
  rw [retainedIn, List.map_filterMap]
  refine h.filterMap fun j j' i hj hj' => ?_
  obtain ⟨c, hc, rfl⟩ := Option.map_eq_some_iff.1 hj
  obtain ⟨c', hc', hi⟩ := Option.map_eq_some_iff.1 hj'
  rw [← idx_of_candidate? hc, ← idx_of_candidate? hc', hi]

theorem invertibleBelow_le (m : Nat) : invertibleBelow m ≤ m :=
  (List.length_filter_le ..).trans_eq List.length_range

theorem invertibleBelow_succ {m : Nat} (h : (keyAt m).isInvertible = true) :
    invertibleBelow (m + 1) = invertibleBelow m + 1 := by
  simp [invertibleBelow, List.range_succ, h]

/-- A candidate retained below `m` has its index there, and its score is that of a plaintext. -/
theorem mem_retainedBelow {m : Nat} {c : Candidate} (h : c ∈ retainedBelow st m) :
    c.idx < m ∧ ∃ k : Key, c.score = score (k.apply st) := by
  obtain ⟨j, hj, hc⟩ := List.mem_filterMap.1 h
  unfold retainedAt at hc
  split at hc
  · cases hc
  next k _ =>
    split at hc
    · obtain rfl := Option.some.inj hc
      exact ⟨List.mem_range.1 hj, k, rfl⟩
    · cases hc

theorem retainedBelow_length_le (m : Nat) : (retainedBelow st m).length ≤ m :=
  (List.length_filterMap_le ..).trans_eq List.length_range

theorem retainedBelow_idx_nodup (m : Nat) : ((retainedBelow st m).map Candidate.idx).Nodup := by
  rw [← retainedIn_scored fun j _ => not_isHit_of_no_pattern j]
  exact retainedIn_idx_nodup List.nodup_range

/-! ## The sequential search (R190) -/

variable (n : Nat)

theorem searchKeys_of_no_hit (h : ∀ j, j < keySpace → (evaluate st p scoring j).isHit = false) :
    searchKeys st n p scoring =
      .ranked (best n (retainedIn st p scoring (List.range keySpace))) (invertibleBelow keySpace)
        (retainedIn st p scoring (List.range keySpace)).length := by
  rw [searchKeys_ranked st n p scoring h, length_filter_isInvertible, filterMap_candidate?]
  rfl

theorem searchKeys_of_hit {m : Nat} {t : List Residue} (hm : m < keySpace) (ht : evaluate st p scoring m = .hit t)
    (h : ∀ j, j < m → (evaluate st p scoring j).isHit = false) :
    searchKeys st n p scoring =
      .matched (keyAt m) m t (invertibleBelow m + 1) (retainedIn st p scoring (List.range m)).length := by
  rw [searchKeys_matched st n p scoring m t hm ht h, length_filter_isInvertible, filterMap_candidate?]
  rfl

/-- A scoring search without a match, whether it has a pattern or not (R202). -/
theorem searchKeys_scored (h : ∀ j, j < keySpace → (evaluate st p true j).isHit = false) :
    searchKeys st n p true =
      .ranked (best n (retainedBelow st keySpace)) (invertibleBelow keySpace) (retainedBelow st keySpace).length := by
  rw [searchKeys_of_no_hit n h, retainedIn_scored h]

theorem searchKeys_unscored (h : ∀ j, j < keySpace → (evaluate st p false j).isHit = false) :
    searchKeys st n p false = .ranked [] (invertibleBelow keySpace) 0 := by
  rw [searchKeys_of_no_hit n h, retainedIn_unscored]
  rfl

/-! ## Indices that cover a range but for singular keys -/

section Cover

variable {js : List Nat} {m : Nat} (hnodup : js.Nodup) (hlt : ∀ j ∈ js, j < m)
  (hout : ∀ j, j < m → j ∉ js → (keyAt j).isInvertible = false)

include hnodup hlt hout

theorem filter_isInvertible_perm_range : (js.filter fun j => (keyAt j).isInvertible).Perm
    ((List.range m).filter fun j => (keyAt j).isInvertible) := by
  refine (List.perm_ext_iff_of_nodup (hnodup.filter _) (List.nodup_range.filter _)).2 fun j => ?_
  rw [List.mem_filter, List.mem_filter, List.mem_range]
  refine and_congr_left fun hinv => ⟨hlt j, fun hj => ?_⟩
  by_contra hmem
  rw [hout j hj hmem] at hinv
  cases hinv

theorem invertibleIn_eq_invertibleBelow : invertibleIn js = invertibleBelow m :=
  (filter_isInvertible_perm_range hnodup hlt hout).length_eq

theorem retainedIn_perm_range : (retainedIn st p scoring js).Perm (retainedIn st p scoring (List.range m)) := by
  have hskip (l : List Nat) : retainedIn st p scoring l =
      retainedIn st p scoring (l.filter fun j => (keyAt j).isInvertible) := by
    rw [retainedIn, retainedIn, List.filterMap_filter]
    refine List.filterMap_congr fun j _ => ?_
    cases h : (keyAt j).isInvertible with
    | false => rw [evaluate_of_singular h]; rfl
    | true => rfl
  rw [hskip js, hskip (List.range m)]
  exact (filter_isInvertible_perm_range hnodup hlt hout).filterMap _

end Cover

/-! ## The merge of the lanes (R205, R207) -/

theorem sum_laneScan_inv (slices : List (List Nat)) :
    ((slices.map (laneScan st n p scoring)).map LaneOutput.inv).sum = invertibleIn slices.flatten := by
  rw [invertibleIn, List.filter_flatten, List.length_flatten, List.map_map, List.map_map]
  exact congrArg List.sum (List.map_congr_left fun slice _ => length_filter_isInvertible slice)

theorem retainedIn_flatten (slices : List (List Nat)) :
    retainedIn st p scoring slices.flatten = (slices.map (retainedIn st p scoring)).flatten :=
  List.filterMap_flatten

theorem sum_laneScan_retained (slices : List (List Nat)) :
    ((slices.map (laneScan st n p scoring)).map LaneOutput.retained).sum =
      (retainedIn st p scoring slices.flatten).length := by
  rw [retainedIn_flatten, List.length_flatten, List.map_map, List.map_map]
  exact congrArg List.sum (List.map_congr_left fun slice _ => congrArg List.length (filterMap_candidate? slice))

theorem flatMap_laneScan_best (slices : List (List Nat)) :
    (slices.map (laneScan st n p scoring)).flatMap LaneOutput.best =
      (slices.map (retainedIn st p scoring)).flatMap (best n) := by
  rw [List.flatMap_map, List.flatMap_map]
  exact List.flatMap_congr fun slice _ => congrArg (best n) (filterMap_candidate? slice)

theorem flatMap_laneHits (slices : List (List Nat)) :
    slices.flatMap (laneHits st p scoring) = slices.flatten.filter fun i => (evaluate st p scoring i).isHit := by
  rw [List.filter_flatten, List.flatMap_def]
  rfl

/-- Lanes that find no match: their local lists are ranked together, which ranks all they retained. -/
theorem laneSearch_of_no_hit {slices : List (List Nat)} (hnodup : slices.flatten.Nodup)
    (h : ∀ i ∈ slices.flatten, (evaluate st p scoring i).isHit = false) :
    laneSearch st n p scoring slices =
      .ranked (best n (retainedIn st p scoring slices.flatten)) (invertibleIn slices.flatten)
        (retainedIn st p scoring slices.flatten).length := by
  have hmin : (slices.flatMap (laneHits st p scoring)).min? = none := by
    rw [List.min?_eq_none_iff, flatMap_laneHits, List.filter_eq_nil_iff]
    exact fun i hi => Bool.eq_false_iff.1 (h i hi)
  have hidx := retainedIn_idx_nodup (st := st) (p := p) (scoring := scoring) hnodup
  rw [retainedIn_flatten] at hidx
  unfold laneSearch
  rw [hmin]
  dsimp only
  rw [sum_laneScan_inv, sum_laneScan_retained, flatMap_laneScan_best, best_flatMap_best n _ hidx, retainedIn_flatten]

/-- Lanes whose lowest match is at index `i`: the counts are those of the indices below it. -/
theorem laneSearch_of_hit {slices : List (List Nat)} {i : Nat} {t : List Residue} (hi : i ∈ slices.flatten)
    (ht : evaluate st p scoring i = .hit t)
    (hbelow : ∀ j ∈ slices.flatten, j < i → (evaluate st p scoring j).isHit = false) :
    laneSearch st n p scoring slices =
      .matched (keyAt i) i t (invertibleIn (slices.flatten.filter fun j => decide (j < i)) + 1)
        (retainedIn st p scoring (slices.flatten.filter fun j => decide (j < i))).length := by
  have hmin : (slices.flatMap (laneHits st p scoring)).min? = some i := by
    rw [List.min?_eq_some_iff, flatMap_laneHits, List.mem_filter]
    refine ⟨⟨hi, (isHit_iff _).2 ⟨t, ht⟩⟩, fun j hj => ?_⟩
    obtain ⟨hj, hit⟩ := List.mem_filter.1 hj
    exact Nat.not_lt.1 fun hji => Bool.eq_false_iff.1 (hbelow j hj hji) hit
  have hscans : slices.map (fun slice => laneScan st n p scoring (slice.filter fun j => decide (j < i))) =
      (slices.map (List.filter fun j => decide (j < i))).map (laneScan st n p scoring) := by
    rw [List.map_map]
    rfl
  unfold laneSearch
  rw [hmin]
  dsimp only
  rw [ht, hscans]
  dsimp only
  rw [sum_laneScan_inv, sum_laneScan_retained, List.filter_flatten]

/-! ## The lanes and the sequential search -/

section Lanes

variable {slices : List (List Nat)} (hnodup : slices.flatten.Nodup) (hlt : ∀ j ∈ slices.flatten, j < keySpace)
  (hout : ∀ j, j < keySpace → j ∉ slices.flatten →
    (keyAt j).isInvertible = false ∨ ∃ i ∈ slices.flatten, i < j ∧ (evaluate st p scoring i).isHit = true)

include hout

/-- Below the lanes' lowest match an index is left out only for a singular key. -/
theorem singular_of_left_out {m : Nat} (hm : m ≤ keySpace)
    (h : ∀ i ∈ slices.flatten, i < m → (evaluate st p scoring i).isHit = false) {j : Nat} (hj : j < m)
    (hmem : j ∉ slices.flatten) : (keyAt j).isInvertible = false := by
  refine (hout j (hj.trans_le hm) hmem).resolve_right ?_
  rintro ⟨i, hi, hij, hit⟩
  rw [h i hi (hij.trans hj)] at hit
  cases hit

/-- So no index below it is a match, whether a lane evaluates it or not. -/
theorem not_isHit_below {m : Nat} (hm : m ≤ keySpace)
    (h : ∀ i ∈ slices.flatten, i < m → (evaluate st p scoring i).isHit = false) {j : Nat} (hj : j < m) :
    (evaluate st p scoring j).isHit = false := by
  by_cases hmem : j ∈ slices.flatten
  · exact h j hmem hj
  · rw [evaluate_of_singular (singular_of_left_out hout hm h hj hmem)]
    rfl

include hnodup hlt

theorem laneSearch_eq_searchKeys_of_no_hit (hnone : ∀ i ∈ slices.flatten, (evaluate st p scoring i).isHit = false) :
    laneSearch st n p scoring slices = searchKeys st n p scoring := by
  have hbelow : ∀ i ∈ slices.flatten, i < keySpace → (evaluate st p scoring i).isHit = false :=
    fun i hi _ => hnone i hi
  have hsingular : ∀ j, j < keySpace → j ∉ slices.flatten → (keyAt j).isInvertible = false :=
    fun _ => singular_of_left_out hout le_rfl hbelow
  have hperm := retainedIn_perm_range (st := st) (p := p) (scoring := scoring) hnodup hlt hsingular
  rw [laneSearch_of_no_hit n hnodup hnone, searchKeys_of_no_hit n fun _ => not_isHit_below hout le_rfl hbelow,
    best_perm (retainedIn_idx_nodup hnodup) n hperm, invertibleIn_eq_invertibleBelow hnodup hlt hsingular,
    hperm.length_eq]

theorem laneSearch_eq_searchKeys_of_hit {i : Nat} (hi : i ∈ slices.flatten)
    (hit : (evaluate st p scoring i).isHit = true)
    (hbelow : ∀ j ∈ slices.flatten, j < i → (evaluate st p scoring j).isHit = false) :
    laneSearch st n p scoring slices = searchKeys st n p scoring := by
  obtain ⟨t, ht⟩ := (isHit_iff _).1 hit
  have hle := (hlt i hi).le
  have hnodup' := hnodup.filter fun j => decide (j < i)
  have hlt' : ∀ j ∈ slices.flatten.filter fun j => decide (j < i), j < i :=
    fun j hj => of_decide_eq_true (List.mem_filter.1 hj).2
  have hsingular : ∀ j, j < i → j ∉ (slices.flatten.filter fun j => decide (j < i)) → (keyAt j).isInvertible = false :=
    fun j hj hmem => singular_of_left_out hout hle hbelow hj fun h =>
      hmem (List.mem_filter.2 ⟨h, decide_eq_true hj⟩)
  rw [laneSearch_of_hit n hi ht hbelow, searchKeys_of_hit n (hlt i hi) ht fun _ => not_isHit_below hout hle hbelow,
    invertibleIn_eq_invertibleBelow hnodup' hlt' hsingular, (retainedIn_perm_range hnodup' hlt' hsingular).length_eq]

/-- The lanes find no match, or there is a lowest one among those they find. -/
theorem laneSearch_eq_searchKeys : laneSearch st n p scoring slices = searchKeys st n p scoring := by
  by_cases hhit : ∃ i, i ∈ slices.flatten ∧ (evaluate st p scoring i).isHit = true
  · obtain ⟨hi, hit⟩ := Nat.find_spec hhit
    exact laneSearch_eq_searchKeys_of_hit n hnodup hlt hout hi hit fun j hj hlow =>
      Bool.eq_false_iff.2 fun h => Nat.find_min hhit hlow ⟨hj, h⟩
  · exact laneSearch_eq_searchKeys_of_no_hit n hnodup hlt hout fun i hi =>
      Bool.eq_false_iff.2 fun h => hhit ⟨i, hi, h⟩

end Lanes

end Search

end Sys2Proof.Laws
end

section
/-! What a search writes to RTAB and OBUF (spec/44_search.md R197 to R199), and the outcomes of SEARCH and SEARCHKP
(R191, R200, R201). -/

namespace Sys2Proof.Laws

open Sys2Proof Sys2Proof.Machine

/-! ## The words of RTAB (R45) -/

/-- The four words of one place of RTAB: an entry's, or zeros. -/
def slotWords : Option Candidate → List Word
  | some x => [x.key.pack, wordOfNat x.score, wordOfNat x.idx, 0#32]
  | none => List.replicate 4 0#32

theorem slotBytes_eq_flatMap (x : Option Candidate) : slotBytes x = (slotWords x).flatMap wordBytes := by
  cases x <;> rfl

theorem slotWords_length (x : Option Candidate) : (slotWords x).length = 4 := by
  cases x <;> rfl

theorem flatMap_wordBytes_getElem? {ws : List Word} {k i : Nat} {w : Word} (hw : ws[k]? = some w) (hi : i < 4) :
    (ws.flatMap wordBytes)[4 * k + i]? = (wordBytes w)[i]? := by
  induction ws generalizing k with
  | nil => cases hw
  | cons v ws ih =>
    rw [List.flatMap_cons]
    cases k with
    | zero =>
      obtain rfl := Option.some.inj hw
      rw [Nat.mul_zero, Nat.zero_add, List.getElem?_append_left hi]
    | succ k =>
      rw [List.getElem?_append_right (by rw [wordBytes_length]; omega), wordBytes_length,
        show 4 * (k + 1) + i - 4 = 4 * k + i by omega, ih hw]

theorem wordAt_eq_of_bytes {s : State} {a : Nat} {w : Word}
    (h : ∀ (i : Nat) (hi : i < (wordBytes w).length), s.byteAt (a + i) = (wordBytes w)[i]) : s.wordAt a = w := by
  have h0 : s.byteAt a = (wordBytes w)[0] := h 0 (by simp)
  rw [State.wordAt, h0, h 1 (by simp), h 2 (by simp), h 3 (by simp)]
  exact wordOfBytes_wordBytes w

section Stores

variable {s : State} {es : List Candidate}

/-- Word k of entry j of RTAB after RTAB is written whole. -/
theorem wordAt_storeRtab {j k : Nat} {w : Word} (hj : j < s.cfg.topnMax) (hw : (slotWords es[j]?)[k]? = some w) :
    (s.storeRtab es).wordAt (rtabAddr j k) = w := by
  have hk : k < 4 := (List.getElem?_eq_some_iff.1 hw).1.trans_eq (slotWords_length _)
  refine wordAt_eq_of_bytes fun i hi => ?_
  have hi4 : i < 4 := hi
  have hoff : rtabAddr j k + i = rtabAddr 0 0 + (16 * j + (4 * k + i)) := by simp only [rtabAddr]; omega
  have hget := rtabImage_getElem? s.cfg.topnMax es j (4 * k + i) hj (by omega)
  rw [slotBytes_eq_flatMap, flatMap_wordBytes_getElem? hw hi4, List.getElem?_eq_getElem hi] at hget
  obtain ⟨hlt, hget⟩ := List.getElem?_eq_some_iff.1 hget
  rw [hoff, State.storeRtab, byteAt_storeBytes_inside _ _ _ _ hlt, hget]

/-- RTAB holds zeros beyond its entries (R199). -/
theorem wordAt_storeRtab_of_length_le {j k : Nat} (hes : es.length ≤ j) (hj : j < s.cfg.topnMax) (hk : k < 4) :
    (s.storeRtab es).wordAt (rtabAddr j k) = 0#32 :=
  wordAt_storeRtab hj (by rw [List.getElem?_eq_none hes, slotWords, List.getElem?_replicate_of_lt hk])

theorem byteAt_storeRtab_outside {a : Nat} (h : a < rtabAddr 0 0 ∨ rtabAddr s.cfg.topnMax 0 ≤ a) :
    (s.storeRtab es).byteAt a = s.byteAt a := by
  refine byteAt_storeBytes_outside s _ _ a ?_
  rw [rtabImage_length]
  simp only [rtabAddr] at h ⊢
  omega

/-- A stream that fits OBUF changes no word of RTAB. -/
theorem wordAt_storeObuf_rtab {t : List Residue} (ht : t.length ≤ 4096) (j k : Nat) :
    (s.storeObuf t).wordAt (rtabAddr j k) = s.wordAt (rtabAddr j k) := by
  have hout {a : Nat} (ha : 0x4000 ≤ a) : (s.storeObuf t).byteAt a = s.byteAt a :=
    byteAt_storeObuf_outside s t a (.inr (by simp only [obufAddr]; omega))
  have hrtab : 0x4000 ≤ rtabAddr j k := by simp only [rtabAddr]; omega
  rw [State.wordAt, State.wordAt, hout hrtab, hout (by omega), hout (by omega), hout (by omega)]

/-! ## The state after a search's completion -/

theorem finish_writeResult_ranked (inv retained : Nat) : (s.writeResult (.ranked es inv retained)).finish .noError =
    { s with mem := (s.storeRtab es).mem, nresults := wordOfNat es.length, invCount := wordOfNat inv,
             retained := wordOfNat retained, errcode := .noError, done := true, pending := none } := by
  unfold State.writeResult State.setCounters State.storeRtab State.storeBytes State.finish
  rfl

theorem finish_writeResult_matched (key : Key) (idx : Nat) (text : List Residue) (inv retained : Nat) :
    (s.writeResult (.matched key idx text inv retained)).finish .noError =
      { s with mem := ((s.storeRtab [⟨key, 0, idx⟩]).storeObuf text).mem, nresults := 1#32, invCount := wordOfNat inv,
               retained := wordOfNat retained, matched := true, errcode := .noError, done := true,
               pending := none } := by
  unfold State.writeResult State.setMatched State.setCounters State.storeObuf State.storeRtab State.storeBytes
    State.finish
  rfl

theorem wordAt_congr {t : State} (hm : t.mem = s.mem) (he : t.epoch = s.epoch) (a : Nat) : t.wordAt a = s.wordAt a := by
  simp only [State.wordAt, byteAt_congr hm he]

section Ranked

variable {inv retained : Nat} {t : State} (ht : (s.writeResult (.ranked es inv retained)).finish .noError = t)

include ht

/-- A ranked result leaves every register but the counters as it was, MATCH among them (R197). -/
theorem frame_of_ranked :
    t = { s with mem := t.mem, nresults := t.nresults, invCount := t.invCount, retained := t.retained,
                 errcode := .noError, done := true, pending := none } := by
  rw [← ht, finish_writeResult_ranked]

theorem nresults_of_ranked : t.nresults = wordOfNat es.length := by
  rw [← ht, finish_writeResult_ranked]

theorem invCount_of_ranked : t.invCount = wordOfNat inv := by
  rw [← ht, finish_writeResult_ranked]

theorem retained_of_ranked : t.retained = wordOfNat retained := by
  rw [← ht, finish_writeResult_ranked]

theorem byteAt_of_ranked (a : Nat) : t.byteAt a = (s.storeRtab es).byteAt a := by
  rw [← ht, finish_writeResult_ranked]
  exact byteAt_congr rfl rfl a

theorem wordAt_of_ranked (a : Nat) : t.wordAt a = (s.storeRtab es).wordAt a := by
  rw [← ht, finish_writeResult_ranked]
  exact wordAt_congr rfl rfl a

end Ranked

section Matched

variable {key : Key} {idx inv retained : Nat} {text : List Residue} {t : State}
  (ht : (s.writeResult (.matched key idx text inv retained)).finish .noError = t)

include ht

/-- A match sets MATCH and leaves every other register but the counters as it was (R198). -/
theorem frame_of_matched :
    t = { s with mem := t.mem, nresults := 1#32, invCount := t.invCount, retained := t.retained, matched := true,
                 errcode := .noError, done := true, pending := none } := by
  rw [← ht, finish_writeResult_matched]

theorem invCount_of_matched : t.invCount = wordOfNat inv := by
  rw [← ht, finish_writeResult_matched]

theorem retained_of_matched : t.retained = wordOfNat retained := by
  rw [← ht, finish_writeResult_matched]

theorem byteAt_of_matched (a : Nat) : t.byteAt a = ((s.storeRtab [⟨key, 0, idx⟩]).storeObuf text).byteAt a := by
  rw [← ht, finish_writeResult_matched]
  exact byteAt_congr rfl rfl a

theorem wordAt_rtab_of_matched (htext : text.length ≤ 4096) (j k : Nat) :
    t.wordAt (rtabAddr j k) = (s.storeRtab [⟨key, 0, idx⟩]).wordAt (rtabAddr j k) := by
  refine Eq.trans ?_ (wordAt_storeObuf_rtab htext j k)
  rw [← ht, finish_writeResult_matched]
  exact wordAt_congr rfl rfl _

end Matched

end Stores

/-! ## The checks (R191) -/

section Checks

variable {s : State}

theorem badPatternLen_iff : s.badPatternLen = true ↔ s.kpLen.toNat = 0 ∨ s.cfg.kpSize < s.kpLen.toNat := by
  rw [State.badPatternLen, Bool.or_eq_true, decide_eq_true_iff, decide_eq_true_iff]
  rfl

theorem not_badPatternLen_of (hpos : 1 ≤ s.kpLen.toNat) (hle : s.kpLen.toNat ≤ s.cfg.kpSize) :
    ¬ s.badPatternLen = true := by
  rw [badPatternLen_iff]
  omega

theorem badResultLimit_iff : s.badResultLimit = true ↔ s.cfg.topnMax < s.topn.toNat := decide_eq_true_iff

theorem not_badResultLimit_of (h : s.topn.toNat ≤ s.cfg.topnMax) : ¬ s.badResultLimit = true := by
  rw [badResultLimit_iff]
  omega

theorem exec_search_of_badBlockLen (h : s.badBlockLen = true) : exec .search s = raise .badLength s := if_pos h

theorem exec_searchkp_of_badBlockLen (h : s.badBlockLen = true) : exec .searchkp s = raise .badLength s := if_pos h

variable (hlen : ¬ s.badBlockLen = true)

include hlen

theorem exec_search_of_badResultLimit (h : s.badResultLimit = true) : exec .search s = raise .badOperand s := by
  rw [exec, execSearch, if_neg hlen, if_pos h]

theorem exec_search_of_good (hn : ¬ s.badResultLimit = true) :
    exec .search s = succeed (s.writeResult (searchKeys s.stream s.topn.toNat none true)) := by
  rw [exec, execSearch, if_neg hlen, if_neg hn]
  rfl

theorem exec_searchkp_of_badPatternLen (h : s.badPatternLen = true) : exec .searchkp s = raise .badLength s := by
  rw [exec, execSearchkp, if_neg hlen, if_pos h]

theorem exec_searchkp_of_badResultLimit (hkp : ¬ s.badPatternLen = true) (h : s.badResultLimit = true) :
    exec .searchkp s = raise .badOperand s := by
  rw [exec, execSearchkp, if_neg hlen, if_neg hkp, if_pos h]

theorem exec_searchkp_of_good (hkp : ¬ s.badPatternLen = true) (hn : ¬ s.badResultLimit = true) :
    exec .searchkp s =
      succeed (s.writeResult (searchKeys s.stream s.topn.toNat (some s.pattern) s.cfg.kpScoresNonmatch)) := by
  rw [exec, execSearchkp, if_neg hlen, if_neg hkp, if_neg hn]
  rfl

/-- SEARCH past its checks: no pattern, so no match, and every candidate is retained (R190, R200). -/
theorem exec_search_ranked (hn : ¬ s.badResultLimit = true) : exec .search s =
    succeed (s.writeResult (.ranked (best s.topn.toNat (retainedBelow s.stream keySpace)) (invertibleBelow keySpace)
      (retainedBelow s.stream keySpace).length)) := by
  rw [exec_search_of_good hlen hn, searchKeys_scored _ fun j _ => not_isHit_of_no_pattern j]

end Checks

/-! ## The values of a ranked result -/

theorem wordOfNat_toNat_of_le_keySpace {n : Nat} (h : n ≤ keySpace) : (wordOfNat n).toNat = n :=
  wordOfNat_toNat (h.trans_lt (by decide))

theorem best_length (n : Nat) (kept : List Candidate) : (best n kept).length = min n kept.length := by
  rw [best_eq_take_ranking, List.length_take, (ranking_perm kept).length_eq]

/-- The scores and indices of the candidates of the input stream fit an RTAB word. -/
theorem wordOfNat_candidate {s : State} (heven : s.len.toNat % 2 = 0) {x : Candidate}
    (hx : x ∈ retainedBelow s.stream keySpace) :
    (wordOfNat x.score).toNat = x.score ∧ (wordOfNat x.idx).toNat = x.idx := by
  obtain ⟨hidx, k, hscore⟩ := mem_retainedBelow hx
  have hle := score_le (k.apply s.stream)
  rw [apply_stream_length k heven] at hle
  exact ⟨wordOfNat_toNat (by omega), wordOfNat_toNat_of_le_keySpace hidx.le⟩

end Sys2Proof.Laws
end

section
/-! The obligations of spec/44_search.md: containment (R194), the ranking (R195), the lanes (R204, R205), and SEARCH
and SEARCHKP (R191, R196 to R203). -/

namespace Sys2Proof.Proofs

open Sys2Proof Sys2Proof.Machine Sys2Proof.Laws

/-! ## The functions -/

/-- Settles O32: a pattern is contained exactly where its substring stands, and is then no longer than the stream. -/
theorem containsIsSubstring : Obligations.ContainsIsSubstring := by
  refine fun t p _ => ⟨(contains_iff_infix t p).trans (infix_iff_take_drop t p), fun hlt => ?_⟩
  exact Bool.eq_false_iff.2 fun h => ((contains_iff_infix t p).1 h).length_le.not_gt hlt

/-- Settles O40: insertion keeps the order, and on distinct indices the order is total, so one list is in it. -/
theorem rankingIsTheUniqueOrder : Obligations.RankingIsTheUniqueOrder := by
  refine fun kept n hidx => ⟨ranking_perm kept, ranking_pairwise hidx, fun l hperm hl => ?_⟩
  have hrank := eq_ranking_of_perm hidx hperm hl
  exact ⟨hrank, hrank ▸ best_eq_take_ranking n kept⟩

/-- Settles O39: an index that is left out is singular, or lies above the lowest match that the lanes find. -/
theorem lanesAgreeWithTheSequentialSearch : Obligations.LanesAgreeWithTheSequentialSearch := by
  intro st n p scoring slices hnodup hlt hout
  refine laneSearch_eq_searchKeys n hnodup hlt fun j hj hmem => (hout j hj hmem).imp_right ?_
  rintro ⟨i, hi, hij, hmatch⟩
  exact ⟨i, hi, hij, (evaluate_isHit_iff st p scoring i).2 hmatch⟩

/-! ## The commands -/

/-- Settles O33: each check comes after the ones before it have passed. -/
theorem searchChecksComeInOrder : Obligations.SearchChecksComeInOrder := by
  refine fun s => ⟨fun hbad => ?_, fun hle heven hkp => ?_, fun hle heven hn => ?_⟩
  · have hbad := badBlockLen_iff.2 hbad
    exact ⟨exec_search_of_badBlockLen hbad, exec_searchkp_of_badBlockLen hbad⟩
  · exact exec_searchkp_of_badPatternLen (not_badBlockLen_of hle heven) (badPatternLen_iff.2 hkp)
  · have hlen := not_badBlockLen_of hle heven
    have hn := badResultLimit_iff.2 hn
    exact ⟨exec_search_of_badResultLimit hlen hn,
      fun hpos hkp => exec_searchkp_of_badResultLimit hlen (not_badPatternLen_of hpos hkp) hn⟩

/-- Settles O34: the table is the first TOPN of the ranking, whose counts, scores and indices fit their words. -/
theorem searchCompletesWithTheRankedList : Obligations.SearchCompletesWithTheRankedList := by
  intro s _
  refine ⟨fun hbad => exec_search_of_badBlockLen (badBlockLen_iff.2 hbad), fun hle heven hn =>
    exec_search_of_badResultLimit (not_badBlockLen_of hle heven) (badResultLimit_iff.2 hn), fun hle heven hn => ?_⟩
  have hexec := exec_search_ranked (not_badBlockLen_of hle heven) (not_badResultLimit_of hn)
  have hnodup := retainedBelow_idx_nodup (st := s.stream) keySpace
  have hfits := fun x => wordOfNat_candidate heven (x := x)
  have hretained := wordOfNat_toNat_of_le_keySpace (retainedBelow_length_le (st := s.stream) keySpace)
  have hinv := wordOfNat_toNat_of_le_keySpace (invertibleBelow_le keySpace)
  rw [succeed_eq] at hexec
  generalize ht : State.finish _ _ = t at hexec
  -- The statement writes the number of keys out.
  change ∃ t ranked, _ ∧ _ ∧ List.Perm ranked (retainedBelow s.stream keySpace) ∧ _
  generalize retainedBelow s.stream keySpace = kept at hexec hnodup hfits hretained ht ⊢
  have hperm := ranking_perm kept
  have hlength := best_length s.topn.toNat kept
  have hnresults : t.nresults.toNat = (best s.topn.toNat kept).length := by
    rw [nresults_of_ranked ht]
    exact wordOfNat_toNat (by omega)
  refine ⟨t, ranking kept, hexec, frame_of_ranked ht, hperm, ranking_pairwise hnodup, ?_, ?_, ?_, fun j x hj hx => ?_,
    fun j k hj hlt hk => ?_, fun a ha => ?_⟩
  · rw [retained_of_ranked ht, hretained, hperm.length_eq]
  · exact (congrArg _ (invCount_of_ranked ht)).trans hinv
  · rw [hnresults, hlength, hperm.length_eq]
  · have hget : (best s.topn.toNat kept)[j]? = some x := by
      rw [best_eq_take_ranking, List.getElem?_take_of_lt (by omega), hx]
    obtain ⟨hscore, hidx⟩ := hfits x (hperm.mem_iff.1 (List.mem_of_getElem? hx))
    have hword {k : Nat} {w : Word} (hw : (slotWords (some x))[k]? = some w) : t.wordAt (rtabAddr j k) = w :=
      (wordAt_of_ranked ht _).trans (wordAt_storeRtab (by omega) (hget ▸ hw))
    exact ⟨hword rfl, (congrArg _ (hword rfl)).trans hscore, (congrArg _ (hword rfl)).trans hidx, hword rfl⟩
  · exact (wordAt_of_ranked ht _).trans (wordAt_storeRtab_of_length_le (hnresults ▸ hj) hlt hk)
  · exact (byteAt_of_ranked ht a).trans (byteAt_storeRtab_outside ha)

/-- Settles O35: an error code is no success, and a success counts every invertible key. -/
theorem searchCountsAllInvertibleKeys : Obligations.SearchCountsAllInvertibleKeys := by
  intro s t ht hok
  by_cases hlen : s.badBlockLen = true
  · rw [exec_search_of_badBlockLen hlen, raise_next_iff] at ht
    rw [ht] at hok
    cases hok
  by_cases hn : s.badResultLimit = true
  · rw [exec_search_of_badResultLimit hlen hn, raise_next_iff] at ht
    rw [ht] at hok
    cases hok
  rw [exec_search_ranked hlen hn, succeed_next_iff, invertibleBelow_keySpace_eq] at ht
  rw [ht]
  rfl

/-- Settles O36: the search ends at its lowest match, whose plaintext has the length of the input stream. -/
theorem searchkpReturnsTheLowestMatch : Obligations.SearchkpReturnsTheLowestMatch := by
  intro s i hlegal hle heven hpos hkp hn hi hmatch hlow
  obtain ⟨⟨-, -, hibuf⟩, -, ⟨htopn, -⟩, -⟩ := (legal_iff s.cfg).1 hlegal
  obtain ⟨k, hk, hcontains⟩ := hmatch
  have hmiss : ∀ j, j < i → (evaluate s.stream (some s.pattern) s.cfg.kpScoresNonmatch j).isHit = false :=
    fun j hj => not_isHit_of fun q hq => Option.some.inj hq ▸ hlow j hj
  have hexec := exec_searchkp_of_good (not_badBlockLen_of hle heven) (not_badPatternLen_of hpos hkp)
    (not_badResultLimit_of hn)
  rw [searchKeys_of_hit _ hi (evaluate_of_contains hk hcontains) hmiss,
    ← invertibleBelow_succ (isInvertible_of_invert hk), succeed_eq] at hexec
  generalize ht : State.finish _ _ = t at hexec
  have htext := apply_stream_length k heven
  have hentry {w : Nat} {v : Word} (hv : (slotWords (some ⟨keyAt i, 0, i⟩))[w]? = some v) :
      t.wordAt (rtabAddr 0 w) = v :=
    (wordAt_rtab_of_matched ht (by omega) 0 w).trans (wordAt_storeRtab htopn hv)
  refine ⟨t, k, hk, hexec, frame_of_matched ht, ?_, fun hscores => ?_, hentry rfl, hentry rfl,
    (congrArg _ (hentry rfl)).trans (wordOfNat_toNat_of_le_keySpace hi.le), hentry rfl, fun j w hj hlt hw => ?_,
    fun m x hx => ?_, htext, fun a ho hr => ?_⟩
  · rw [invCount_of_matched ht]
    exact wordOfNat_toNat_of_le_keySpace ((invertibleBelow_le _).trans hi)
  · rw [hscores] at hmiss
    rw [retained_of_matched ht, hscores, retainedIn_scored hmiss]
    exact wordOfNat_toNat_of_le_keySpace ((retainedBelow_length_le i).trans hi.le)
  · exact (wordAt_rtab_of_matched ht (by omega) j w).trans (wordAt_storeRtab_of_length_le hj hlt hw)
  · exact (byteAt_of_matched ht _).trans (byteAt_storeObuf_of_getElem? hx)
  · exact (byteAt_of_matched ht a).trans
      ((byteAt_storeObuf_outside _ _ a (htext ▸ ho)).trans (byteAt_storeRtab_outside hr))

/-- Settles O37: past equal checks both are the scoring search without a match. -/
theorem searchkpWithoutMatchIsSearch : Obligations.SearchkpWithoutMatchIsSearch := by
  intro s hscores hpos hkp hnone
  have hkp := not_badPatternLen_of hpos hkp
  by_cases hlen : s.badBlockLen = true
  · rw [exec_searchkp_of_badBlockLen hlen, exec_search_of_badBlockLen hlen]
  by_cases hn : s.badResultLimit = true
  · rw [exec_searchkp_of_badResultLimit hlen hkp hn, exec_search_of_badResultLimit hlen hn]
  rw [exec_searchkp_of_good hlen hkp hn, hscores, exec_search_ranked hlen hn,
    searchKeys_scored _ fun j hj => not_isHit_of fun q hq => Option.some.inj hq ▸ hnone j hj]

/-- Settles O38: a search that scores nothing retains nothing, so RTAB is written with no entry. -/
theorem searchkpWithoutMatchUnscored : Obligations.SearchkpWithoutMatchUnscored := by
  intro s _ hscores hle heven hpos hkp hn hnone
  have hexec := exec_searchkp_of_good (not_badBlockLen_of hle heven) (not_badPatternLen_of hpos hkp)
    (not_badResultLimit_of hn)
  rw [hscores, searchKeys_unscored _ fun j hj => not_isHit_of fun q hq => Option.some.inj hq ▸ hnone j hj,
    succeed_eq] at hexec
  have hinv := wordOfNat_toNat_of_le_keySpace (invertibleBelow_le keySpace)
  generalize ht : State.finish _ _ = t at hexec
  have hframe := frame_of_ranked ht
  rw [nresults_of_ranked ht, retained_of_ranked ht] at hframe
  exact ⟨t, hexec, hframe, (congrArg _ (invCount_of_ranked ht)).trans hinv,
    fun j k hj hk => (wordAt_of_ranked ht _).trans (wordAt_storeRtab_of_length_le (Nat.zero_le j) hj hk),
    fun a ha => (byteAt_of_ranked ht a).trans (byteAt_storeRtab_outside ha)⟩

end Sys2Proof.Proofs
end

section
/-! A state after a completion: what an error code tells of it (R222), and that it accepts the next command (R100). -/

namespace Sys2Proof.Laws

open Sys2Proof Sys2Proof.Machine

/-- A completion that shows an error code had no other effect (R222). -/
theorem Completes.eq_finish_of_error {p : Prop} {s t : State} (h : Completes p s (.next t))
    (herr : t.errcode ≠ .noError) : t = s.finish t.errcode := by
  cases h with
  | error c hc => rfl
  | success u hu hm => exact absurd (finish_errcode u .noError) herr

/-- Nothing is pending after a completion, so the next word written to CMD is accepted (R100). -/
theorem finish_accepts (s : State) (c : ErrCode) (w : Word) :
    ((s.finish c).transact (writeTx 0x014 w)).pending = some w := by
  rw [transact_writeTx_cmd_idle _ w (finish_pending s c), respond_pending, accept_pending]

end Sys2Proof.Laws
end

section
/-! The obligation of spec/60_exceptions.md: what a completion with an error changes (R222). -/

namespace Sys2Proof.Proofs

open Sys2Proof Sys2Proof.Machine Sys2Proof.Laws

/-- Settles O7: a completion with an error only finishes the command, and a finished command leaves CMD free. -/
theorem errorCompletionWritesNothingElse : Obligations.ErrorCompletionWritesNothingElse := by
  intro i s t h herr
  have hcompletes : Completes _ s (.next t) := h ▸ exec_completes i s
  have ht := hcompletes.eq_finish_of_error herr
  generalize t.errcode = c at ht ⊢
  subst ht
  exact ⟨rfl, (finish_matched s c).trans, finish_byteAt s c, finish_accepts s c⟩

end Sys2Proof.Proofs
end

section
/-! The port while a command is pending (spec/70_reset_and_hazards.md R260, R262), and what the two resets leave in the
buffers (R250, R252). -/

namespace Sys2Proof.Laws

open Sys2Proof Sys2Proof.Machine

/-! ## Writes: the registers that a pending command guards, and those that ignore writes at all times (R260) -/

def guardedRegs : List Reg := [.cmd, .key, .opa, .opb, .len, .kpLen, .topn]

def readOnlyRegs : List Reg := [.id, .cfg0, .cfg1, .res0, .res1, .res2, .invCount, .retained, .nresults]

section Writes

variable (s : State) (w : Word) {r : Reg}

theorem writeReg_guarded (hr : r ∈ guardedRegs) : ∃ t, s.writeReg w r = s.unlessBusy t := by
  simp only [guardedRegs, List.mem_cons, List.not_mem_nil, or_false] at hr
  obtain rfl | rfl | rfl | rfl | rfl | rfl | rfl := hr <;> exact ⟨_, rfl⟩

theorem writeReg_readOnly (hr : r ∈ readOnlyRegs) : s.writeReg w r = s := by
  simp only [readOnlyRegs, List.mem_cons, List.not_mem_nil, or_false] at hr
  obtain rfl | rfl | rfl | rfl | rfl | rfl | rfl | rfl | rfl := hr <;> rfl

theorem transact_writeTx_readOnly (hr : r ∈ readOnlyRegs) :
    s.transact (writeTx r.offset w) = s.respond .ok := by
  rw [transact_writeTx_reg, writeReg_readOnly s w hr]

/-- The registers end below 0x048 (R43). -/
theorem offset_lt_reserved (r : Reg) : r.offset < 0x048 := by
  cases r <;> decide

theorem transact_writeTx_reserved {off : Nat} (hle : 0x048 ≤ off) (hlt : off < 0x1000) (hal : off % 4 = 0) :
    s.transact (writeTx off w) = s.respond .ok :=
  transact_writeTx_target (g := .reserved) (by omega) hal
    (targetAt_reserved s.cfg hlt fun r => Nat.ne_of_lt ((offset_lt_reserved r).trans_le hle)) w

theorem transact_writeTx_rtab (hlegal : s.cfg.legal = true) {k : Nat} (hk : 4 * k < 16 * s.cfg.topnMax) :
    s.transact (writeTx (0x4000 + 4 * k) w) = s.respond .ok := by
  obtain ⟨hlt, hal, hg⟩ := targetAt_rtabWord hlegal hk
  exact transact_writeTx_target hlt hal hg w

variable {s} (hbusy : s.busy = true)

include hbusy

theorem transact_writeTx_guarded_busy (hr : r ∈ guardedRegs) :
    s.transact (writeTx r.offset w) = { s with werr := true, resp := some .ok } := by
  obtain ⟨t, ht⟩ := writeReg_guarded s w hr
  rw [transact_writeTx_reg, ht, unlessBusy_of_busy s t hbusy, State.respond]

theorem transact_writeTx_buffer_busy (hlegal : s.cfg.legal = true) {b : Nat × Nat} (hb : b ∈ hostBuffers s.cfg)
    {k : Nat} (hk : 4 * k < b.2) :
    s.transact (writeTx (b.1 + 4 * k) w) = { s with werr := true, resp := some .ok } := by
  rw [transact_writeTx_buffer hlegal hb hk, unlessBusy_of_busy s _ hbusy, State.respond]

end Writes

/-! ## Reads: what they answer, whatever is pending (R262) -/

section Reads

variable {s : State} {off : Nat} {g : Target} (hlt : off < 0x8000) (hal : off % 4 = 0)
  (hg : targetAt s.cfg off = some g)

include hlt hal hg

theorem resp_readTx_stored (hv : s.volatileTarget g = false) :
    (s.transact (readTx off)).resp = some (.data (s.targetWord g)) := by
  rw [transact_readTx_target hlt hal hg, hostRead_stored s g (.inr hv)]

/-- A read of any target returns a word: the stored one, or a free one. -/
theorem exists_resp_readTx_data : ∃ d, (s.transact (readTx off)).resp = some (.data d) := by
  rw [transact_readTx_target hlt hal hg]
  obtain ⟨-, -, h⟩ | ⟨-, h⟩ := hostRead_cases s g <;> rw [h] <;> exact ⟨_, rfl⟩

end Reads

theorem exists_resp_readTx_reg (s : State) (r : Reg) :
    ∃ d, (s.transact (readTx r.offset)).resp = some (.data d) :=
  exists_resp_readTx_data (offset_aligned r).1 (offset_aligned r).2 (targetAt_offset s.cfg r)

section BufferReads

variable {s : State} (hlegal : s.cfg.legal = true) {k : Nat}

include hlegal

theorem resp_readTx_ibuf (hk : 4 * k < s.cfg.ibufSize) :
    (s.transact (readTx (0x1000 + 4 * k))).resp = some (.data (s.wordAt (ibufAddr (4 * k)))) := by
  have := ibufSize_le_page hlegal
  exact resp_readTx_stored (by omega) (by omega) (targetAt_ibuf hlegal hk) rfl

theorem resp_readTx_obuf_beyond_len (hk : 4 * k < s.cfg.ibufSize) (hlen : s.len.toNat ≤ 4 * k) :
    (s.transact (readTx (0x2000 + 4 * k))).resp = some (.data (s.wordAt (obufAddr (4 * k)))) := by
  have := ibufSize_le_page hlegal
  exact resp_readTx_stored (by omega) (by omega) (targetAt_obuf hlegal hk) (decide_eq_false hlen.not_gt)

theorem resp_readTx_kpbuf (hk : 4 * k < s.cfg.kpSize) :
    (s.transact (readTx (0x3000 + 4 * k))).resp = some (.data (s.wordAt (kpbufAddr (4 * k)))) := by
  have := kpSize_lt_page hlegal
  exact resp_readTx_stored (by omega) (by omega) (targetAt_kpbuf hlegal hk) rfl

theorem exists_resp_readTx_obuf (hk : 4 * k < s.cfg.ibufSize) :
    ∃ d, (s.transact (readTx (0x2000 + 4 * k))).resp = some (.data d) := by
  have := ibufSize_le_page hlegal
  exact exists_resp_readTx_data (by omega) (by omega) (targetAt_obuf hlegal hk)

theorem exists_resp_readTx_rtab (hk : 4 * k < 16 * s.cfg.topnMax) :
    ∃ d, (s.transact (readTx (0x4000 + 4 * k))).resp = some (.data d) := by
  obtain ⟨hlt, hal, hg⟩ := targetAt_rtabWord hlegal hk
  exact exists_resp_readTx_data hlt hal hg

end BufferReads

/-! ## Two states that differ in volatile outputs only (R262) -/

/-- The four bytes of a buffer word stand inside the word's page. -/
def WordInPage : Target → Prop
  | .ibuf i | .obuf i | .kpbuf i | .rtab i => i + 4 ≤ 0x1000
  | .reg _ | .reserved => True

theorem wordInPage_of_targetAt {p : Params} {off : Nat} {g : Target} (hal : off % 4 = 0)
    (hg : targetAt p off = some g) : WordInPage g := by
  unfold targetAt at hg
  split_ifs at hg
  case pos => split at hg <;> cases hg <;> trivial
  all_goals
    cases hg
    rw [WordInPage]
    omega

theorem wordInPage_of_target {p : Params} {x : Transaction} {g : Target} (hg : x.target p = some g) :
    WordInPage g := by
  unfold Transaction.target at hg
  split at hg
  next hx => exact wordInPage_of_targetAt hx.2 hg
  next => cases hg

/-- A byte of the pages of IBUF and KPBUF, or of OBUF's from LEN on: no pending command writes it. -/
def StableByte (s : State) (a : Nat) : Prop :=
  (0x1000 ≤ a ∧ a < 0x2000) ∨ (0x3000 ≤ a ∧ a < 0x4000) ∨
    (0x2000 ≤ a ∧ a < 0x3000 ∧ s.len.toNat ≤ a - 0x2000)

/-- The state `u` is `s` but for the result registers, the counters, RTAB and OBUF[0 … LEN). -/
structure DifferInVolatile (s u : State) : Prop where
  frame : u = { s with
    res0 := u.res0, res1 := u.res1, res2 := u.res2, invCount := u.invCount, retained := u.retained,
    nresults := u.nresults, mem := u.mem }
  stable : ∀ a, StableByte s a → u.mem.read? a = s.mem.read? a

section Volatile

variable {s u : State} (h : DifferInVolatile s u)

include h

theorem DifferInVolatile.byteAt {a : Nat} (ha : StableByte s a) : u.byteAt a = s.byteAt a := by
  rw [State.byteAt, State.byteAt, h.stable a ha, congrArg State.epoch h.frame]

theorem DifferInVolatile.wordAt {a : Nat} (ha : ∀ j < 4, StableByte s (a + j)) : u.wordAt a = s.wordAt a := by
  rw [State.wordAt, State.wordAt, h.byteAt (a := a) (ha 0 (by decide)), h.byteAt (ha 1 (by decide)),
    h.byteAt (ha 2 (by decide)), h.byteAt (ha 3 (by decide))]

theorem DifferInVolatile.regWord {r : Reg} (hr : r.volatile = false) : u.regWord r = s.regWord r := by
  rw [h.frame]
  cases r with
  | res0 | res1 | res2 | invCount | retained | nresults => cases hr
  | id | cfg0 | cfg1 | ctrl | status | cmd | key | opa | opb | len | kpLen | topn => rfl

/-- Which targets are volatile outputs depends on LEN alone. -/
theorem DifferInVolatile.volatileTarget (g : Target) : u.volatileTarget g = s.volatileTarget g := by
  rw [h.frame]
  cases g <;> rfl

theorem DifferInVolatile.targetWord {g : Target} (hpage : WordInPage g) (hv : s.volatileTarget g = false) :
    u.targetWord g = s.targetWord g := by
  cases g with
  | reg r => exact h.regWord hv
  | reserved => rfl
  | ibuf i =>
    rw [WordInPage] at hpage
    exact h.wordAt fun j hj => .inl (by rw [ibufAddr]; omega)
  | obuf i =>
    rw [WordInPage] at hpage
    have hlen : s.len.toNat ≤ i := Nat.not_lt.1 (of_decide_eq_false hv)
    exact h.wordAt fun j hj => .inr (.inr (by rw [obufAddr]; omega))
  | kpbuf i =>
    rw [WordInPage] at hpage
    exact h.wordAt fun j hj => .inr (.inl (by rw [kpbufAddr]; omega))
  | rtab i => cases hv

variable (hbusy : s.busy = true)

include hbusy

/-- A volatile output reads as the next free word in both states, and the rest as the same stored word. -/
theorem DifferInVolatile.hostRead_resp {g : Target} (hpage : WordInPage g) :
    (u.hostRead g).resp = (s.hostRead g).resp := by
  cases hv : s.volatileTarget g with
  | true =>
    have hbusy' : u.busy = true := (congrArg State.busy h.frame).trans hbusy
    rw [hostRead_volatile s g hbusy hv, hostRead_volatile u g hbusy' (h.volatileTarget g ▸ hv),
      congrArg State.fresh h.frame]
  | false =>
    rw [hostRead_stored s g (.inr hv), hostRead_stored u g (.inr (h.volatileTarget g ▸ hv)), h.targetWord hpage hv]

theorem DifferInVolatile.transact_resp {x : Transaction} (hread : x.op = .read) :
    (u.transact x).resp = (s.transact x).resp := by
  have hcfg : u.cfg = s.cfg := by rw [h.frame]
  cases hg : x.target s.cfg with
  | none =>
    rw [transact_none s x hg, transact_none u x (hcfg ▸ hg), respond_resp, respond_resp]
  | some g =>
    rw [transact_read s x g hg hread, transact_read u x g (hcfg ▸ hg) hread]
    exact h.hostRead_resp hbusy (wordInPage_of_target hg)

end Volatile

/-! ## Resets -/

theorem pack_zero : Key.pack ⟨0, 0, 0, 0⟩ = 0#32 := by decide

/-- While `rst` is asserted and when it is released the machine is in power-on reset (R250). -/
theorem driveRst_of_asserted (s : State) {level : Bool} (h : level = true ∨ s.rst = true) :
    s.driveRst level = { s.powerOn with rst := level } :=
  if_pos (Bool.or_eq_true_iff.2 h)

theorem transact_srst (s : State) {w : Word} (h : w.getLsbD 1 = true) :
    s.transact (writeTx 0x00C w) = s.softReset.respond .ok := by
  rw [transact_writeTx_ctrl, writeCtrl_of_srst s h]

/-- The commands that write a buffer: OBUF[0 … LEN) for ENCRYPT, DECRYPT and SEARCHKP, RTAB for the searches (R252). -/
theorem mem_wordOutputRegions {s : State} {v : Word} {r : Nat × Nat} (h : r ∈ s.wordOutputRegions v) :
    (r = s.obufRegion ∧ (v = encode .encrypt ∨ v = encode .decrypt ∨ v = encode .searchkp)) ∨
      (r = s.rtabRegion ∧ (v = encode .search ∨ v = encode .searchkp)) := by
  unfold State.wordOutputRegions at h
  split at h
  next i hi =>
    have hv := encode_of_decode hi
    cases i with
    | nop | egcd | modinv | det | invchk | invert | score => cases h
    | encrypt => exact .inl ⟨List.mem_singleton.1 h, .inl hv⟩
    | decrypt => exact .inl ⟨List.mem_singleton.1 h, .inr (.inl hv)⟩
    | search => exact .inr ⟨List.mem_singleton.1 h, .inl hv⟩
    | searchkp =>
      obtain h | h := List.mem_cons.1 h
      · exact .inl ⟨h, .inr (.inr hv)⟩
      · exact .inr ⟨List.mem_singleton.1 h, .inr hv⟩
  next => cases h

/-- A soft reset keeps the bytes that the cancelled command could not write. -/
theorem byteAt_softReset_of_pending {s : State} {v : Word} {a : Nat} (hv : s.pending = some v)
    (h : ∀ r ∈ s.wordOutputRegions v, ¬ (r.1 ≤ a ∧ a < r.1 + r.2)) : s.softReset.byteAt a = s.byteAt a := by
  have hmem : s.softReset.mem = (s.wordOutputRegions v).foldl (Memory.scramble s.fresh) s.mem := by
    simp [State.softReset, hv]
  rw [State.byteAt, State.byteAt, hmem, read?_foldl_scramble_outside _ _ _ _ h, softReset_epoch]

theorem byteAt_softReset_of_idle {s : State} (h : s.pending = none) (a : Nat) :
    s.softReset.byteAt a = s.byteAt a := by
  rw [softReset_of_idle s h]
  exact byteAt_congr rfl rfl a

end Sys2Proof.Laws
end

section
/-! The obligations of spec/70_reset_and_hazards.md: the two resets (R250, R252), accesses while a command is pending
(R260, R262), and the machine's invariant at reset. -/

namespace Sys2Proof.Proofs

open Sys2Proof Sys2Proof.Machine Sys2Proof.Laws

/-- Settles O50: each kind of offset has one write rule, and only the guarded ones look at the pending command. -/
theorem writesWhileBusyAreDropped : Obligations.WritesWhileBusyAreDropped := by
  intro s w hlegal
  refine ⟨fun v hv => ?busy, ?readOnly, ?reserved, ?rtab⟩
  case busy =>
    have hbusy : s.busy = true := (busy_eq_true_iff s).2 ⟨v, hv⟩
    refine ⟨?guarded, fun b hb k hk => transact_writeTx_buffer_busy w hbusy hlegal hb hk, fun hsrst => ?ie,
      fun hsrst => ?srst, transact_writeTx_status s w⟩
    case guarded =>
      exact (List.forall_mem_map (f := Reg.offset) (l := guardedRegs)
        (P := fun off => s.transact (writeTx off w) = { s with werr := true, resp := some .ok })).2
          fun r hr => transact_writeTx_guarded_busy w hbusy hr
    case ie => rw [transact_writeTx_ctrl, writeCtrl_of_no_srst s hsrst, State.respond]
    case srst => rw [transact_srst s hsrst, respond_pending, softReset_pending]
  case readOnly =>
    exact (List.forall_mem_map (f := Reg.offset) (l := readOnlyRegs)
      (P := fun off => s.transact (writeTx off w) = { s with resp := some .ok })).2
        fun r hr => transact_writeTx_readOnly s w hr
  case reserved => exact fun k hle hlt => transact_writeTx_reserved s w hle hlt (Nat.mul_mod_right 4 k)
  case rtab => exact fun k hk => transact_writeTx_rtab s w hlegal hk

/-- Settles O51: a pending command hides the volatile outputs behind free words, and the two states agree elsewhere. -/
theorem readsWhileBusyRevealNoResult : Obligations.ReadsWhileBusyRevealNoResult := by
  intro s v r0 r1 r2 ic rt nr m x hlegal hv hread hstable
  have hbusy : s.busy = true := (busy_eq_true_iff s).2 ⟨v, hv⟩
  have hdiff : DifferInVolatile s { s with
      res0 := r0, res1 := r1, res2 := r2, invCount := ic, retained := rt, nresults := nr, mem := m } := ⟨rfl, hstable⟩
  refine ⟨hdiff.transact_resp hbusy hread,
    fun k hk => ⟨resp_readTx_ibuf hlegal hk, resp_readTx_obuf_beyond_len hlegal hk⟩,
    fun k hk => resp_readTx_kpbuf hlegal hk, ?volatileRegs,
    fun k hk => exists_resp_readTx_rtab hlegal hk, fun k hk _ => exists_resp_readTx_obuf hlegal hk⟩
  case volatileRegs =>
    exact (List.forall_mem_map (f := Reg.offset) (l := [.res0, .res1, .res2, .invCount, .retained, .nresults])
      (P := fun off => ∃ d, (s.transact (readTx off)).resp = some (.data d))).2
        fun r _ => exists_resp_readTx_reg s r

/-- Settles O54: the write is a soft reset, whose scrambled regions are those that the statement leaves out. -/
theorem softResetCancelsAndKeepsInputs : Obligations.SoftResetCancelsAndKeepsInputs := by
  rintro s t w hsrst rfl
  rw [transact_srst s hsrst]
  refine ⟨?registers, byteAt_softReset_of_idle, fun v a hv hobuf hrtab => byteAt_softReset_of_pending hv ?bytes⟩
  case registers =>
    exact ⟨softReset_ie s, softReset_done s, softReset_matched s, softReset_werr s, softReset_errcode s,
      softReset_cmd s, (congrArg Key.pack (softReset_key s)).trans pack_zero, softReset_opa s, softReset_opb s,
      softReset_res0 s, softReset_res1 s, softReset_res2 s, softReset_len s, softReset_kpLen s, softReset_topn s,
      softReset_invCount s, softReset_retained s, softReset_nresults s, softReset_pending s,
      irq_eq_false_of _ (.inl (softReset_ie s)), softReset_cfg s, softReset_events s, softReset_rst s⟩
  case bytes =>
    rintro r hr ⟨hle, hlt⟩
    obtain ⟨rfl, hcmd⟩ | ⟨rfl, hcmd⟩ := mem_wordOutputRegions hr
    · simp only [State.obufRegion, obufAddr] at hle hlt
      exact hobuf ⟨hcmd, by omega⟩
    · exact hrtab ⟨hcmd, hle, hlt⟩

/-- Settles O53: both levels leave the state of `powerOn`. -/
theorem powerOnResetClearsTheMachine : Obligations.PowerOnResetClearsTheMachine := by
  intro s t h
  obtain ⟨level, rfl⟩ : ∃ level, t = { s.powerOn with rst := level } := by
    obtain rfl | ⟨hrst, rfl⟩ := h
    · exact ⟨true, driveRst_of_asserted s (.inl rfl)⟩
    · exact ⟨false, driveRst_of_asserted s (.inr hrst)⟩
  exact ⟨rfl, rfl, rfl, rfl, rfl, rfl, pack_zero, rfl, rfl, rfl, rfl, rfl, rfl, rfl, rfl, rfl, rfl, rfl, rfl, rfl,
    rfl, rfl⟩

/-- Settles O56: the default parameters are legal, memory is empty, and no flag and no counter is set. -/
theorem resetMeetsTheInvariant : Obligations.ResetMeetsTheInvariant :=
  show State.reset.Inv from
    { cfgLegal := by decide
      memWf := ⟨.nil, nofun⟩
      memInBuffers := nofun
      pendingClear := nofun
      matchedSingle := nofun
      nresultsFits := Nat.zero_le _
      countsOrdered := ⟨Nat.le_refl 0, Nat.zero_le _⟩
      inReset := nofun }

end Sys2Proof.Proofs
end
